-- ==== Sys2Proof/Word.lean ====
section
/-! DEFINITION. The words of the VK524: the store's 16-bit words, bytes, word addresses and 5-unit codes
(spec/00 CONVENTIONS). -/

namespace Sys2Proof

/-- A store word: 16 bits, bit 0 least significant (spec/00). -/
abbrev Word := BitVec 16

/-- One byte of a store word; in text the low byte comes first (spec/00). -/
abbrev Byte := BitVec 8

/-- A word address of the store, 0..262143 (SA17..SA0, spec/00 Table 0-3). -/
abbrev Addr := BitVec 18

/-- A 5-unit line code as received, 0..31 (spec/00 Table 0-2). -/
abbrev Code := BitVec 5

/-- A line number, 0..23 (spec/00). -/
abbrev LineNo := Fin 24

/-- A delivery number, 0..255 (R105). -/
abbrev DeliveryNo := Fin 256

/-- A transit index, 0..127 (R101). -/
abbrev TransitNo := Fin 128

/-- A station index, 0..63 (R85). -/
abbrev StationNo := Fin 64

/-- The byte enables of a processor or store write, PBE1 (high byte) and PBE0 (low byte). -/
structure ByteEnables where
  hi : Bool
  lo : Bool
deriving DecidableEq, Repr

/-- Both byte enables asserted: what a snooped write needs to be taken (R4). -/
abbrev ByteEnables.both : ByteEnables := ⟨true, true⟩

end Sys2Proof
end

