-- ==== Sys2Proof/Syntax.lean ====
section
/-! DEFINITION. The commands of the VK524: one constructor per row of spec/opcode_table.json. Each is one
event, whole and indivisible (spec/95). The table gives its rows no operands; the operands here are what
the event carries (assumption log 22). -/

namespace Sys2Proof

/-- A command. A processor write carries its data and byte enables; an event of one line carries the line. -/
inductive Instr where
  /-- RESET_ASSERTED (R18). -/
  | resetAsserted
  /-- RESET_DEASSERTED (R19): the levels of CPB3..CPB0 and of HOLD at that moment. -/
  | resetDeasserted (straps : BitVec 4) (hold : Bool)
  /-- PROCESSOR_WRITE (R1). -/
  | processorWrite (addr : Addr) (data : Word) (be : ByteEnables)
  /-- FORWARDED_ACCESS_COMPLETION (R2). -/
  | forwardedAccessCompletion
  /-- REQUEST_PLACEMENT (R9). -/
  | requestPlacement
  /-- INTERNAL_WRITE_COMPLETION (R11). -/
  | internalWriteCompletion
  /-- START_WORD (R13): a write of control-page offset 16. -/
  | startWord (data : Word) (be : ByteEnables)
  /-- SETUP_READ_COMPLETION (R14). -/
  | setupReadCompletion
  /-- POOL_BUILD_END (R33). -/
  | poolBuildEnd
  /-- CLAIM (R24): a read of control-page offset 34. -/
  | claim
  /-- RETURN_WORD (R27): a write of offset 17. -/
  | returnWord (data : Word) (be : ByteEnables)
  /-- POOL_WRITE (R29): a processor write into the pool region. -/
  | poolWrite (addr : Addr) (data : Word) (be : ByteEnables)
  /-- LINK_READ_COMPLETION (R34). -/
  | linkReadCompletion
  /-- HAND_OVER_HEAD_WRITE_COMPLETION (R37). -/
  | handOverHeadWriteCompletion
  /-- POSTING_LINK_READ_COMPLETION (R38). -/
  | postingLinkReadCompletion
  /-- POSTING_HEAD_READ_COMPLETION (R39). -/
  | postingHeadReadCompletion
  /-- POSTING_HEAD_WRITE_COMPLETION (R175). -/
  | postingHeadWriteCompletion
  /-- POST_WORD (R171): a write of offset 18. -/
  | postWord (data : Word) (be : ByteEnables)
  /-- CHARACTER_COMPLETION (R62): the character's code and indications, and whether its sample 53 was mark (R48). -/
  | characterCompletion (line : LineNo) (code : Code) (noise framing lastMark : Bool)
  /-- RECEIVER_TAKE (R63). -/
  | receiverTake (line : LineNo)
  /-- IDLE_TIMEOUT_EXPIRY (R78). -/
  | idleTimeoutExpiry (line : LineNo)
  /-- IDLE_CLOSE (R78). -/
  | idleClose (line : LineNo)
  /-- BREAK_DETECTION (R52). -/
  | breakDetection (line : LineNo)
  /-- LOOP_OPEN (R53). -/
  | loopOpen (line : LineNo)
  /-- STEADY_MARK (R139). -/
  | steadyMark (line : LineNo)
  /-- COMMIT_STATIONS (R88): a write of 1 to offset 20. -/
  | commitStations (be : ByteEnables)
  /-- STATION_SHADOW_WRITE (R87): a write of offset 256 + 4 entry + word. -/
  | stationShadowWrite (entry : StationNo) (word : Fin 4) (data : Word) (be : ByteEnables)
  /-- CANCEL_WORD (R115): a write of offset 21. -/
  | cancelWord (data : Word) (be : ByteEnables)
  /-- CLOCK_ADVANCE (R57). -/
  | clockAdvance
  /-- CLOCK_SET_HIGH (R58): a write of offset 22. -/
  | clockSetHigh (data : Word) (be : ByteEnables)
  /-- CLOCK_SET_LOW (R59): a write of offset 23. -/
  | clockSetLow (data : Word) (be : ByteEnables)
  /-- ENABLE (R124): a write of 1 to offset 128 + line. -/
  | enable (line : LineNo) (be : ByteEnables)
  /-- DISABLE (R125): a write of 2 to offset 128 + line. -/
  | disable (line : LineNo) (be : ByteEnables)
  /-- LINE_RESET (R127): a write of 3 to offset 128 + line. -/
  | lineReset (line : LineNo) (be : ByteEnables)
  /-- LINE_SETTINGS_WORD (R128): a write of offset 160 + line. -/
  | lineSettingsWord (line : LineNo) (data : Word) (be : ByteEnables)
  /-- PREAMBLE_END (R124). -/
  | preambleEnd (line : LineNo)
  /-- TRANSMIT_HEAD_READ_COMPLETION (R131). -/
  | transmitHeadReadCompletion
  /-- TEXT_READ_COMPLETION (R132). -/
  | textReadCompletion
  /-- TRANSMIT_LINK_READ_COMPLETION (R132). -/
  | transmitLinkReadCompletion
  /-- CHARACTER_BOUNDARY (R136). -/
  | characterBoundary (line : LineNo)
  /-- BREAK_IN_END (R137). -/
  | breakInEnd (line : LineNo)
  /-- GUARD_EXPIRY (R146). -/
  | guardExpiry (line : LineNo)
  /-- ANSWER_TIMEOUT_EXPIRY (R153). -/
  | answerTimeoutExpiry (line : LineNo)
  /-- COLLISION (R149). -/
  | collision (line : LineNo)
  /-- BACKOFF_EXPIRY (R150). -/
  | backoffExpiry (line : LineNo)
  /-- HOLD_LATCHING (R164): HOLD becomes asserted. -/
  | holdLatching
  /-- RESUME (R165): a write of 2 to offset 20, with the HOLD level at its arrival. -/
  | resume (be : ByteEnables) (hold : Bool)
  /-- REPORT_READ_INDEX (R184): a write of offset 19. -/
  | reportReadIndex (data : Word) (be : ByteEnables)
  /-- REPORT_WORD_COMPLETION (R183). -/
  | reportWordCompletion
  /-- START_EDGE (R46). -/
  | startEdge (line : LineNo)
  /-- FALSE_START (R47): whether sample 5 was space. -/
  | falseStart (line : LineNo) (lastSpace : Bool)
  /-- BREAK_END (R52). -/
  | breakEnd (line : LineNo)
  /-- FRAME_START (R45). -/
  | frameStart (line : LineNo)
deriving DecidableEq, Repr

end Sys2Proof
end

