-- ==== Sys2Proof/Decode.lean ====
section
/-! DEFINITION. Words and commands. The rows of spec/opcode_table.json carry no bits, so no word spells a command
(log 28). -/

namespace Sys2Proof

/-- The command that a word of `nbits` bits spells: none, since no row gives bits. -/
def decodeTableWord (_nbits _w : Nat) : Option Instr := none

end Sys2Proof
end

