-- ==== Sys2Proof/Config.lean ====
section
/-! DEFINITION. The constants the spec fixes, and the free values: what the spec leaves to the store or to the
order of events that fall together. A free value has no body, so nothing can be proved of it. -/

namespace Sys2Proof.Config

/-- Places of the internal request queue (R8). -/
def queuePlaces : Nat := 64

/-- Places of a receive FIFO (R62). -/
def fifoPlaces : Nat := 8

/-- Places of the post queue (R170). -/
def postPlaces : Nat := 4

/-- The value NONE of a block-number field (spec/00). -/
def none16 : Word := 65535#16

/-- The text byte LOST (spec/00). -/
def lost : Byte := 64#8

/-- The line number of the office in reports and heads (spec/00). -/
def officeLine : Nat := 31

/-- Most blocks of a chain (R20). -/
def chainBlocks : Nat := 64

/-- The stored length at which truncation applies (R74). -/
def truncationLength : Nat := 3934

/-- The most characters a message holds (R20). -/
def textCapacity : Nat := 3938

/-- The header length that ends a header (R72). -/
def headerLimit : Nat := 48

/-- Reference cycles of one second (R57). -/
def cyclesPerSecond : Nat := 2457600

/-- What an unlisted byte of the store reads as. DESIGN CHOICE (log 5): the spec gives the store no contents. -/
def unlistedByte : Byte := 0#8

/-- FREE VALUE (R18, log 10): whether the word under a write that reset ends holds its new value, for the k-th
free value taken. -/
opaque resetWriteLands : Nat → Bool

/-- FREE VALUE (spec/00 "Order of events", log 9): the order in which events that fall at one reference cycle are
taken, for the k-th free value taken. It counts only where it is a rearrangement of the events (`ordered`). -/
opaque tieOrder : Nat → List Instr → List Instr

/-- FREE VALUE (R182, R187, log 49): the order in which the Report Unit takes `n` offers made at one event, each by its
place from 0 in the order in which they were made, for the k-th free value taken. It counts only where it rearranges the
offers and keeps what the rules order. -/
opaque offerOrder (k n : Nat) : List Nat

/-- FREE VALUE (R166, log 14): the order in which a latching event acts on the lines, for the k-th free value taken. It
counts only where it is a rearrangement of the lines (`linesInOrder`). -/
opaque lineOrder : Nat → List LineNo

/-- The 24 lines in the order a latching event acts on them: any rearrangement, chosen by the free value. -/
def linesInOrder (k : Nat) : List LineNo :=
  if (lineOrder k).isPerm (List.finRange 24) then lineOrder k else List.finRange 24

/-- The events of one moment in the order they are taken: any rearrangement, chosen by the free value. -/
def ordered (k : Nat) (evs : List Instr) : List Instr :=
  match evs with
  | [] => []
  | [e] => [e]
  | _ => if (tieOrder k evs).isPerm evs then tieOrder k evs else evs

end Sys2Proof.Config
end

