-- ==== Sys2Proof/Machine/State.lean ====
section
/-! DEFINITION. The state of the VK524, block by block as spec/00 Table 0-1 lists them, and its values after reset.
Plain data only. -/

namespace Sys2Proof.Machine

/-! ## Outcomes -/

/-- Faults. The spec gives the part no fault that stops it: every failure is a report or an indication and the
state goes on. No meaning raises one (safe: there is none to raise). -/
inductive Fault : Type
deriving DecidableEq, Repr

/-- Refusals. -/
inductive Refusal where
  /-- Raised by exec's arm of a command that has no meaning yet; no arm does (safe). -/
  | notModelled (mnemonic : String)
deriving DecidableEq, Repr

/-! ## The store and the Store Port (R1 to R11) -/

/-- The office's main store (spec/00): listed bytes by byte address, 2a the low and 2a+1 the high byte of word a. -/
structure Memory where
  cells : List Host.Cell
deriving DecidableEq, Repr

/-- The data and byte enables of a write. -/
structure WriteData where
  data : Word
  be : ByteEnables
deriving DecidableEq, Repr

/-- A processor access: a write, or a read when no data is given (R1). -/
structure Access where
  addr : Addr
  write : Option WriteData
deriving DecidableEq, Repr

/-- The issuers of internal requests (Table 1-4). -/
inductive Issuer where
  | receiver (line : LineNo)
  | transmitter (line : LineNo)
  | walker
  | delivery
  | report
  | office
deriving DecidableEq, Repr

/-- What an internal request is for: it decides which completion event ends it. -/
inductive Purpose where
  /-- a setup read (R14) -/
  | setupRead
  /-- a link write of the pool initialisation walk; the flag marks the last (R33) -/
  | poolLink (last : Bool)
  /-- a free-list link write (R23) -/
  | freeLink
  /-- a link read of a release, hand-over or abandon walk (R34) -/
  | walkLink
  /-- the held-reason write of a hand-over walk (R37) -/
  | handOverHead
  /-- a link read of a posting walk (R38) -/
  | postLink
  /-- a head read of a posting walk (R39) -/
  | postHeadRead
  /-- a head write of a posting walk; the flag marks word 15 (R174, R175) -/
  | postHeadWrite (last : Bool)
  /-- a receiver's byte write (R67) -/
  | rxByte
  /-- a receiver's link write to a new block (R67) -/
  | rxLink
  /-- a receiver's close write; the flag marks head word 15 (R76) -/
  | rxClose (last : Bool)
  /-- a head rewrite of the Delivery Unit (R104) -/
  | rewrite
  /-- a report word; the flag marks word 3 (R183) -/
  | reportWord (last : Bool)
  /-- a transmitter's read of head word 1 (R131) -/
  | txHead
  /-- a transmitter's text read (R132) -/
  | txText
  /-- a transmitter's link read (R132) -/
  | txLink
deriving DecidableEq, Repr

/-- An internal request (R8): address, direction and data, issuer. -/
structure Req where
  addr : Addr
  write : Option WriteData
  issuer : Issuer
  purpose : Purpose
deriving DecidableEq, Repr

/-- The store cycle in progress (R10). -/
inductive Cycle where
  | forwarded (a : Access)
  | internal (r : Req)
deriving DecidableEq, Repr

/-- The last-served indication (R10). -/
inductive Served where
  | processor
  | internal
deriving DecidableEq, Repr

/-- The Store Port (R8 to R11). -/
structure StorePort where
  /-- internal request queue, head first (R8) -/
  queue : List Req
  /-- waiting list of issuers, head first (R9) -/
  waiting : List Issuer
  /-- the forwarded access that waits for the store (R1, R10) -/
  fwd : Option Access
  /-- the store cycle in progress -/
  cycle : Option Cycle
  lastServed : Served
deriving DecidableEq, Repr

/-- The Path Unit (R1, R3, R6, R18). -/
structure PathUnit where
  /-- the strap value sampled at the deassertion of reset; the control-page base is it times 16384 (R3) -/
  straps : BitVec 4
  /-- the processor access held while reset is asserted (R1, R18) -/
  held : Option Access
  /-- the last word passed to the processor on PD15..PD0 (R2, R6) -/
  pdOut : Word
deriving DecidableEq, Repr

/-! ## Office Control (R12 to R19, R57 to R60, R164) -/

/-- The office state; LOADING has its two stages (R12). -/
inductive OfficeState where
  | dormant
  | setupRead
  | poolBuild
  | running
deriving DecidableEq, Repr

/-- The held setup values (Table 1-8). Patterns are listed in pattern order, precedence codes by class. -/
structure HeldSetup where
  poolBase : Nat
  poolBlocks : Nat
  ringBase : Nat
  ringCode : Nat
  ltrs : Code
  figs : Code
  space : Code
  cr : Code
  lf : Code
  substitute : Code
  som : List Code
  eom : List Code
  repeatNotice : List Code
  precedence : List Code
  /-- T, character times -/
  answerTimeout : Nat
  /-- G, character times -/
  guardTime : Nat
  /-- A, seconds -/
  ageing : Nat
  /-- Rt, seconds -/
  retry : Nat
  /-- I, character times -/
  idleTimeout : Nat
deriving DecidableEq, Repr

/-- Office Control. -/
structure OfficeControl where
  state : OfficeState
  setupLock : Bool
  /-- the setup-locked indication (R13, R17) -/
  setupLocked : Bool
  refusal : Nat
  /-- setup reads already placed with the Store Port, 0..14 (R14) -/
  setupNext : Nat
  /-- setup words kept so far, in order of offset (R14) -/
  setupWords : List Word
  held : HeldSetup
  clock : BitVec 32
  /-- seconds divider (R57); it stands at a whole second while its advance waits to be taken -/
  divider : Nat
  /-- the model's own: the advance that waits is void, for a set of the clock was taken first at its cycle (R59, log 42) -/
  advanceVoid : Bool
  /-- captured high (R58) -/
  captured : Option Word
  /-- message serial counter (R60) -/
  serial : BitVec 16
  holdLatch : Bool
  holdStill : Bool
deriving DecidableEq, Repr

/-! ## The Pool Unit (R20 to R30) -/

/-- The state of a block in the block map (R21). -/
inductive BlockState where
  | free
  | owned
  | held
deriving DecidableEq, Repr

/-- The Pool Unit. -/
structure PoolUnit where
  /-- one state for each block of the pool (R21) -/
  map : List BlockState
  /-- free list, head first (R22) -/
  free : List Nat
  /-- starved list, head first (R28) -/
  starved : List LineNo
deriving DecidableEq, Repr

/-! ## The Chain Walker (R31 to R41) -/

/-- The kinds of walk (R31, R33). -/
inductive WalkKind where
  | init
  | posting
  | release
  | handOver
  | abandon
deriving DecidableEq, Repr

/-- A walk request (R31). -/
structure WalkRequest where
  kind : WalkKind
  first : Nat
  count : Nat
  origin : Nat
  /-- hand-over reason, 0 for every other kind -/
  reason : Nat
  transit : Option TransitNo
deriving DecidableEq, Repr

/-- The walk in progress. -/
structure Walk where
  req : WalkRequest
  /-- the block reached and not yet acted on -/
  block : Nat
  /-- the blocks acted on so far (R34) -/
  acted : Nat
  /-- the marked list of a posting walk, in order of marking (R38) -/
  marked : List Nat
  /-- the head words 1 to 14 a posting walk has read so far (R39) -/
  words : List Word
  /-- the serial a posting walk has taken (R174) -/
  serial : BitVec 16
  /-- the requests of the walk not yet placed, in order -/
  todo : List Req
deriving DecidableEq, Repr

/-- A free-list link write the walker holds: the number `value` for the link word of block `target` (R23). -/
structure LinkWrite where
  target : Nat
  value : Nat
deriving DecidableEq, Repr

/-- The Chain Walker. -/
structure ChainWalker where
  queue : List WalkRequest
  walk : Option Walk
  /-- free-list link writes held, in the order they were decided (R32) -/
  links : List LinkWrite
  /-- the request offered and not yet placed (R9, R32) -/
  offered : Option Req
deriving DecidableEq, Repr

/-! ## Line Units (R42 to R84, R119 to R158) -/

/-- Stop length (R42). -/
inductive StopLength where
  | one
  | oneAndHalf
  | two
deriving DecidableEq, Repr

/-- Line type (R42). -/
inductive LineType where
  | pointToPoint
  | party
deriving DecidableEq, Repr

/-- Line settings (R42). -/
structure Settings where
  divisor : BitVec 12
  /-- prescale P: true for 8, false for 1 -/
  by8 : Bool
  stop : StopLength
  type : LineType
deriving DecidableEq, Repr

/-- Sampler states (R46). -/
inductive SamplerState where
  | waitMark
  | waitStart
  | inCharacter
deriving DecidableEq, Repr

/-- The sampler (R46 to R49): the number of the last sample of the character and its bits so far. -/
structure Sampler where
  state : SamplerState
  sample : Nat
  code : Code
  noise : Bool
  framing : Bool
deriving DecidableEq, Repr

/-- Receiver states (Table 4-1). -/
inductive RxState where
  | off
  | hunting
  | header
  | text
  | closing
deriving DecidableEq, Repr

/-- An entry of the receive FIFO (R62). -/
structure FifoEntry where
  code : Code
  noise : Bool
  gapBefore : Bool
deriving DecidableEq, Repr

/-- The parse stage of a header (R70). -/
inductive ParseStage where
  | precedence
  | stations
  | done
deriving DecidableEq, Repr

/-- The assembly record (Table 4-2). -/
structure Assembly where
  serial : BitVec 16
  received : BitVec 32
  first : Option Nat
  current : Option Nat
  blockCount : Nat
  storedLength : Nat
  headerCount : Nat
  stage : ParseStage
  cls : Nat
  heldToken : Option Code
  origin : Option (BitVec 10)
  dests : List (BitVec 10)
  mutilated : Bool
  truncated : Bool
  headerFault : Bool
  incomplete : Bool
  complete : Bool
  autoRelease : Bool
  /-- bytes awaiting, oldest first -/
  awaiting : List Byte
deriving DecidableEq, Repr

/-- An abandon request of a receiver's abandon list, with the number of the receiver's placed requests whose
completion it still waits for (R81). -/
structure Abandonment where
  first : Nat
  count : Nat
  remaining : Nat
deriving DecidableEq, Repr

/-- The receiver of a Line Unit (R61). -/
structure Receiver where
  state : RxState
  fifo : List FifoEntry
  pendingGap : Bool
  window : List Code
  asm : Assembly
  idleClose : Bool
  closePoint : Nat
  abandon : List Abandonment
  noise : Bool
  /-- idle timeout: sample ticks since it was started or restarted (R55) -/
  idleTimer : Option Nat
  /-- the offered request that is not placed (R9, R63) -/
  unplaced : Option Req
  /-- in CLOSING: close writes already offered, 0..16 (R76) -/
  closeNext : Nat
deriving DecidableEq, Repr

/-- Transmitter states (Table 7-1). -/
inductive TxState where
  | off
  | preamble
  | idle
  | guarding
  | calling
  | answerWait
  | sending
  | breakIn
  | held
  | pause
deriving DecidableEq, Repr

/-- A member of a call set (R95). -/
structure Member where
  station : StationNo
  callCode : BitVec 10
  confirm : Bool
  answered : Bool
deriving DecidableEq, Repr

/-- The delivery in hand (R119). -/
structure Hand where
  number : DeliveryNo
  first : Nat
  callSet : List Member
  repeatFlag : Bool
deriving DecidableEq, Repr

/-- An owed sending (R122). -/
inductive Owed where
  | preamble
  | breakIn
deriving DecidableEq, Repr

/-- The kinds of sending (R121). A frame keeps the stop length it began with (R129). -/
inductive SendKind where
  | frame (code : Code) (stop : StopLength)
  | preamble
  | breakIn
deriving DecidableEq, Repr

/-- The sending in progress and the number of its last sample. -/
structure Sending where
  kind : SendKind
  sample : Nat
deriving DecidableEq, Repr

/-- The transmitter of a Line Unit (R119, R142, R159). -/
structure Transmitter where
  state : TxState
  /-- LSEND, true for mark -/
  send : Bool
  hand : Option Hand
  textBegun : Bool
  holding : List Byte
  readPos : Nat
  effLen : Nat
  /-- the head read has completed, so the effective length is known (R131) -/
  lenKnown : Bool
  /-- the block that the next text read lies in, and its place in the chain from 0 (R132) -/
  curBlock : Nat
  curIndex : Nat
  /-- codes still to be sent before the text: LTRS and REPEAT, or the call of one member (R131, R151) -/
  opening : List Code
  stopping : Bool
  distantBreak : Bool
  owed : Option Owed
  sending : Option Sending
  /-- reads offered and not placed (R9) -/
  out : List Req
  /-- placed reads whose completion is awaited -/
  live : Nat
  /-- placed reads whose completion is discarded (R126, R137) -/
  stale : Nat
  /-- break-in pending (R159) -/
  breakInPending : Bool
  guardCount : Option Nat
  backingOff : Bool
  backoffCount : Option Nat
  /-- a collision has started the backoff anew, and the expiry of the older count, still to be taken, is void (the model's
  own: log 47) -/
  backoffVoid : Bool
  /-- call position 1..4 (R142) -/
  callPos : Option Nat
  answerCount : Option Nat
  answerWindow : List Code
deriving DecidableEq, Repr

/-- One Line Unit. -/
structure LineUnit where
  active : Settings
  shadow : Settings
  settingsPending : Bool
  /-- sample divider (R43) -/
  divider : Nat
  sampler : Sampler
  /-- the levels of the sample before last and of the last sample -/
  recent : Bool × Bool
  spaceRun : Nat
  markRun : Nat
  inBreak : Bool
  /-- break recovery (R139); recorded on every line, acted on by a point-to-point line (log 16) -/
  recovery : Bool
  faulted : Bool
  framing : Nat
  overrun : Nat
  rx : Receiver
  tx : Transmitter
deriving DecidableEq, Repr

/-! ## The Router (R85 to R99) -/

/-- The service of a station (R85). -/
inductive Service where
  | inService
  | outOfService
  | diverted
deriving DecidableEq, Repr

/-- A station entry (Table 5-1). -/
structure Station where
  valid : Bool
  code : BitVec 10
  line : BitVec 5
  callCode : Option (BitVec 10)
  confirm : Bool
  service : Service
  divert : Word
deriving DecidableEq, Repr

/-- The Router's two tables. -/
structure Router where
  active : Vector Station 64
  shadow : Vector Station 64
deriving DecidableEq, Repr

/-! ## The Report Unit's records (R187) -/

/-- The report kinds (Table 11-1). -/
inductive ReportKind where
  | messageRouted
  | messageHeld
  | messageAbandoned
  | deliveryDone
  | deliveryInterrupted
  | deliveryFailed
  | deliveryCancelled
  | stationUnanswered
  | messageReleased
  | messageReturned
  | postRefused
  | cancelRefused
  | guardViolation
  | commit
  | lineFault
  | lineRestored
  | holdLatched
  | holdResumed
deriving DecidableEq, Repr

/-- The six fields of a report (R187). -/
structure Record where
  kind : ReportKind
  qualifier : Nat
  line : Nat
  block : Word
  detail : Word
  time : BitVec 32
deriving DecidableEq, Repr

/-- The blocks that make reports (Table 11-1); a receiver and a Line Unit by their line. -/
inductive Owner where
  | router
  | walker
  | receiver (line : Nat)
  | delivery
  | post
  | pool
  | lineUnit (line : Nat)
  | office
deriving DecidableEq, Repr

/-- A report that is offered at the event in hand (R182). -/
structure Offer where
  record : Record
  /-- it was attached to a head rewrite and is handed over at that rewrite's placement (R104) -/
  attached : Bool
  /-- the transit index of the walk request that the same placement gives to the Chain Walker after it, if any (R177) -/
  ending : Option TransitNo
deriving DecidableEq, Repr

/-! ## The Delivery Unit (R100 to R118) -/

/-- States of a transit entry (R101). -/
inductive TransitState where
  | free
  | live
  | releasing
deriving DecidableEq, Repr

/-- A transit entry (Table 6-1). -/
structure Transit where
  state : TransitState
  first : Nat
  blockCount : Nat
  origin : Nat
  autoRelease : Bool
  outstanding : Nat
deriving DecidableEq, Repr

/-- States of a delivery entry (R105). -/
inductive DeliveryState where
  | free
  | queued
  | waiting
  | active
deriving DecidableEq, Repr

/-- A delivery entry (Table 6-2). -/
structure Delivery where
  state : DeliveryState
  transit : TransitNo
  line : LineNo
  cls : Nat
  queuedTime : BitVec 32
  attempts : Nat
  repeatFlag : Bool
  retryTime : BitVec 32
  cancelPending : Bool
  callSet : List Member
deriving DecidableEq, Repr

/-- A head rewrite of the rewrite list (R104). -/
structure Rewrite where
  addr : Addr
  value : Nat
  reports : List Record
  walk : Option WalkRequest
deriving DecidableEq, Repr

/-- The Delivery Unit. -/
structure DeliveryUnit where
  transit : Vector Transit 128
  entries : Vector Delivery 256
  /-- line queues, head first (R106) -/
  queues : Vector (List DeliveryNo) 24
  /-- active places (R100) -/
  active : Vector (Option DeliveryNo) 24
  rewrites : List Rewrite
deriving DecidableEq, Repr

/-- The Report Unit (R181). -/
structure ReportUnit where
  fill : Word
  write : Word
  read : Word
  /-- the offers of the event in hand that are not yet taken; each is taken by the event's end, so there are none between
  events (R182, R187; the model's own: log 49) -/
  offers : List Offer
  /-- accepted records whose words have not all been placed, each with its index -/
  records : List (Word × Record)
  /-- the next word of the head record to place, 0..3 (R183) -/
  wordNext : Nat
  overflow : Bool
  badRead : Bool
  tally : Nat
  /-- the ATTN output (R185) -/
  attn : Bool
deriving DecidableEq, Repr

/-! ## The part -/

/-- The input pins the model keeps: straps, HOLD, LRECV0..23 (true for mark), SREADY (log 4). -/
structure Pins where
  straps : BitVec 4
  hold : Bool
  recv : Vector Bool 24
  sready : Bool
deriving DecidableEq, Repr

/-- A change of the inputs that no command carries (log 4). -/
inductive PinInput where
  | recv (line : LineNo) (mark : Bool)
  | hold (level : Bool)
  | straps (level : BitVec 4)
  | sready (level : Bool)
  /-- the processor presents a read of this address (R1) -/
  | read (addr : Addr)
  /-- this many reference cycles pass before the next change -/
  | cycles (n : Nat)
deriving DecidableEq, Repr

/-- The state of the part, of the store behind it, and of the queue of commands that wait. -/
structure State where
  pending : List Instr
  inputs : List PinInput
  pins : Pins
  /-- RESET is asserted -/
  resetIn : Bool
  /-- the number of free values taken so far (the model's own: logs 9, 10, 14 and 49) -/
  freeCount : Nat
  path : PathUnit
  port : StorePort
  store : Memory
  office : OfficeControl
  pool : PoolUnit
  walker : ChainWalker
  lines : Vector LineUnit 24
  router : Router
  du : DeliveryUnit
  /-- post queue, head first; the head is in walk (R170) -/
  post : List Word
  report : ReportUnit
deriving DecidableEq, Repr

/-! ## Reset values -/

/-- The store lists nothing (log 5). -/
def Memory.empty : Memory := ⟨[]⟩

/-- R8 to R10: queue and waiting list empty, last-served INTERNAL. -/
def StorePort.reset : StorePort :=
  { queue := [], waiting := [], fwd := none, cycle := none, lastServed := .internal }

/-- Table 1-8: every held value 0. -/
def HeldSetup.reset : HeldSetup :=
  { poolBase := 0, poolBlocks := 0, ringBase := 0, ringCode := 0,
    ltrs := 0, figs := 0, space := 0, cr := 0, lf := 0, substitute := 0,
    som := [0, 0, 0, 0], eom := [0, 0, 0, 0], repeatNotice := [0, 0, 0, 0], precedence := [0, 0, 0, 0],
    answerTimeout := 0, guardTime := 0, ageing := 0, retry := 0, idleTimeout := 0 }

/-- R19, with the hold latch at the level of HOLD. -/
def OfficeControl.reset (hold : Bool) : OfficeControl :=
  { state := .dormant, setupLock := false, setupLocked := false, refusal := 0, setupNext := 0, setupWords := [],
    held := HeldSetup.reset, clock := 0, divider := 0, advanceVoid := false, captured := none, serial := 0,
    holdLatch := hold, holdStill := false }

/-- R21, R22, R28. -/
def PoolUnit.reset : PoolUnit := { map := [], free := [], starved := [] }

/-- R31, R32. -/
def ChainWalker.reset : ChainWalker := { queue := [], walk := none, links := [], offered := none }

/-- R42: D = 844, P = 8, 1.5 units, point-to-point. -/
def Settings.reset : Settings := { divisor := 844, by8 := true, stop := .oneAndHalf, type := .pointToPoint }

/-- A sampler at rest (log 12). -/
def Sampler.reset : Sampler := { state := .waitMark, sample := 0, code := 0, noise := false, framing := false }

/-- A clear assembly record (R66, R83). -/
def Assembly.reset : Assembly :=
  { serial := 0, received := 0, first := none, current := none, blockCount := 0, storedLength := 0,
    headerCount := 0, stage := .precedence, cls := 0, heldToken := none, origin := none, dests := [],
    mutilated := false, truncated := false, headerFault := false, incomplete := false, complete := false,
    autoRelease := false, awaiting := [] }

/-- R83. -/
def Receiver.reset : Receiver :=
  { state := .off, fifo := [], pendingGap := false, window := [], asm := Assembly.reset, idleClose := false,
    closePoint := 0, abandon := [], noise := false, idleTimer := none, unplaced := none, closeNext := 0 }

/-- R120, R142, R159. -/
def Transmitter.reset : Transmitter :=
  { state := .off, send := true, hand := none, textBegun := false, holding := [], readPos := 0, effLen := 0,
    lenKnown := false, curBlock := 0, curIndex := 0, opening := [], stopping := false, distantBreak := false,
    owed := none, sending := none, out := [], live := 0, stale := 0, breakInPending := false,
    guardCount := none, backingOff := false, backoffCount := none, backoffVoid := false, callPos := none,
    answerCount := none, answerWindow := [] }

/-- R42, R43, R51, R54, R56, R83, R120. -/
def LineUnit.reset : LineUnit :=
  { active := Settings.reset, shadow := Settings.reset, settingsPending := false, divider := 0,
    sampler := Sampler.reset, recent := (true, true), spaceRun := 0, markRun := 0, inBreak := false,
    recovery := false, faulted := false, framing := 0, overrun := 0, rx := Receiver.reset,
    tx := Transmitter.reset }

/-- R86. -/
def Station.reset : Station :=
  { valid := false, code := 0, line := 0, callCode := none, confirm := false, service := .inService, divert := 0 }

/-- R86. -/
def Router.reset : Router :=
  { active := Vector.replicate 64 Station.reset, shadow := Vector.replicate 64 Station.reset }

/-- A FREE transit entry (R100; the other fields have no meaning, log 12). -/
def Transit.reset : Transit :=
  { state := .free, first := 0, blockCount := 0, origin := 0, autoRelease := false, outstanding := 0 }

/-- A FREE delivery entry (R100; the other fields have no meaning, log 12). -/
def Delivery.reset : Delivery :=
  { state := .free, transit := 0, line := 0, cls := 0, queuedTime := 0, attempts := 0, repeatFlag := false,
    retryTime := 0, cancelPending := false, callSet := [] }

/-- R100. -/
def DeliveryUnit.reset : DeliveryUnit :=
  { transit := Vector.replicate 128 Transit.reset, entries := Vector.replicate 256 Delivery.reset,
    queues := Vector.replicate 24 [], active := Vector.replicate 24 none, rewrites := [] }

/-- R181, R185. -/
def ReportUnit.reset : ReportUnit :=
  { fill := 0, write := 0, read := 0, offers := [], records := [], wordNext := 0, overflow := false, badRead := false,
    tally := 0, attn := false }

/-- Pin levels of State.reset (log 12). -/
def Pins.reset : Pins := { straps := 0, hold := false, recv := Vector.replicate 24 true, sready := true }

/-- The part right after the deassertion of reset (R19 and the reset rule of each chapter). -/
def State.reset : State :=
  { pending := [], inputs := [], pins := Pins.reset, resetIn := false, freeCount := 0,
    path := { straps := 0, held := none, pdOut := 0 },
    port := StorePort.reset, store := Memory.empty, office := OfficeControl.reset false,
    pool := PoolUnit.reset, walker := ChainWalker.reset, lines := Vector.replicate 24 LineUnit.reset,
    router := Router.reset, du := DeliveryUnit.reset, post := [], report := ReportUnit.reset }

end Sys2Proof.Machine
end

