-- ==== Sys2Proof/Machine/Store.lean ====
section
/-! DEFINITION. The store behind the part: reading and writing words and bytes, in canonical form. -/

namespace Sys2Proof.Machine

/-- The byte at a byte address: the listed one, else what an unlisted byte reads as (log 5). -/
def cellsRead : List Host.Cell → Nat → Byte
  | [], _ => Config.unlistedByte
  | (a, b) :: rest, k => if a = k then b else cellsRead rest k

/-- Writing a byte keeps the addresses rising and lists no byte equal to the unlisted one. -/
def cellsWrite : List Host.Cell → Nat → Byte → List Host.Cell
  | [], k, v => if v = Config.unlistedByte then [] else [(k, v)]
  | (a, b) :: rest, k, v =>
    if k < a then
      if v = Config.unlistedByte then (a, b) :: rest else (k, v) :: (a, b) :: rest
    else if k = a then
      if v = Config.unlistedByte then rest else (k, v) :: rest
    else (a, b) :: cellsWrite rest k v

/-- Canonical form from a lower bound on: addresses strictly rising, no unlisted byte listed. -/
def cellsWf : Nat → List Host.Cell → Bool
  | _, [] => true
  | lo, (a, b) :: rest => decide (lo ≤ a) && (b != Config.unlistedByte) && cellsWf (a + 1) rest

/-- The memory is in canonical form. -/
def Memory.wf (m : Memory) : Bool := cellsWf 0 m.cells

/-- The low byte of word a, at byte address 2a. -/
def Memory.readLow (m : Memory) (a : Addr) : Byte := cellsRead m.cells (2 * a.toNat)

/-- The high byte of word a, at byte address 2a + 1. -/
def Memory.readHigh (m : Memory) (a : Addr) : Byte := cellsRead m.cells (2 * a.toNat + 1)

/-- The word at a word address: two bytes, the low byte in bits 0-7 (spec/00). -/
def Memory.readWord (m : Memory) (a : Addr) : Word := m.readHigh a ++ m.readLow a

/-- A store write: the enabled bytes take the data's bytes, the other byte keeps what the store holds (R189). -/
def Memory.write (m : Memory) (a : Addr) (w : WriteData) : Memory :=
  let low := if w.be.lo then cellsWrite m.cells (2 * a.toNat) (w.data.extractLsb' 0 8) else m.cells
  ⟨if w.be.hi then cellsWrite low (2 * a.toNat + 1) (w.data.extractLsb' 8 8) else low⟩

/-- A store cycle's effect on the store: a write writes, a read changes nothing. -/
def Memory.serve (m : Memory) (a : Addr) : Option WriteData → Memory
  | some w => m.write a w
  | none => m

end Sys2Proof.Machine
end

