-- ==== Sys2Proof/Machine/Operands.lean ====
section
/-! DEFINITION. The layouts of spec/12: every field the part takes from a word or puts into one, and the places
of words in the store. Bits that carry no field are ignored on reading (R188) and 0 on writing (R189). -/

namespace Sys2Proof.Machine

/-- Bits `lo` to `lo + n - 1` of a word as a number. -/
def field (w : Word) (lo n : Nat) : Nat := (w.extractLsb' lo n).toNat

/-- The 5-bit code at bit `lo` of a word. -/
def codeAt (w : Word) (lo : Nat) : Code := w.extractLsb' lo 5

/-- One bit as a number. -/
def bit (b : Bool) (place : Nat) : Nat := if b then 2 ^ place else 0

/-! ## Addresses -/

/-- The control-page base: the sampled straps times 16384 (R3). -/
def pageBase (s : State) : Addr := BitVec.ofNat 18 (s.path.straps.toNat * 16384)

/-- The address of a control-page offset. -/
def pageAddr (s : State) (off : Nat) : Addr := BitVec.ofNat 18 (s.path.straps.toNat * 16384 + off)

/-- The control-page offset of an address, if it lies in the page's 1024 words (R3). -/
def pageOffset (s : State) (a : Addr) : Option Nat :=
  let base := s.path.straps.toNat * 16384
  if base ≤ a.toNat ∧ a.toNat < base + 1024 then some (a.toNat - base) else none

/-- Word `w` of block `b`: the word at P x 32 + b x 32 + w (R20). -/
def blockWord (s : State) (b w : Nat) : Addr := BitVec.ofNat 18 (s.office.held.poolBase * 32 + b * 32 + w)

/-- The block of the pool that holds an address, if the pool region does (R7, R29). -/
def poolBlock (s : State) (a : Addr) : Option Nat :=
  let base := s.office.held.poolBase * 32
  if base ≤ a.toNat ∧ a.toNat < base + s.office.held.poolBlocks * 32 then some ((a.toNat - base) / 32) else none

/-- The place in its chain of the block that holds text position `t` (R20). -/
def chainIndex (t : Nat) : Nat := if t < 32 then 0 else 1 + (t - 32) / 62

/-- The word, within its block, of text position `t` (R20). -/
def textWord (t : Nat) : Nat := if t < 32 then 16 + t / 2 else 1 + (t - 32) % 62 / 2

/-- The ring size in records, 16 x 2^k (spec/11). -/
def ringSize (s : State) : Nat := 16 * 2 ^ s.office.held.ringCode

/-- Word `w` of the record of index `x` (R183). -/
def ringWord (s : State) (x : Word) (w : Nat) : Addr :=
  BitVec.ofNat 18 (s.office.held.ringBase * 64 + x.toNat % ringSize s * 4 + w)

/-- A block number as a link word or block field. -/
def blockNumber (b : Nat) : Word := BitVec.ofNat 16 b

/-! ## Setup block (Table 12-2) -/

/-- The fields of the fourteen setup words. -/
def parseSetup (ws : List Word) : HeldSetup :=
  let w := fun i => ws.getD i 0
  { poolBase := field (w 0) 0 13
    poolBlocks := field (w 1) 0 12
    ringBase := field (w 2) 0 12
    ringCode := field (w 3) 0 3
    ltrs := codeAt (w 4) 0
    figs := codeAt (w 4) 5
    space := codeAt (w 4) 10
    cr := codeAt (w 5) 0
    lf := codeAt (w 5) 5
    substitute := codeAt (w 5) 10
    som := [codeAt (w 6) 0, codeAt (w 6) 5, codeAt (w 6) 10, codeAt (w 7) 0]
    eom := [codeAt (w 7) 5, codeAt (w 7) 10, codeAt (w 8) 0, codeAt (w 8) 5]
    repeatNotice := [codeAt (w 8) 10, codeAt (w 9) 0, codeAt (w 9) 5, codeAt (w 9) 10]
    precedence := [codeAt (w 10) 0, codeAt (w 10) 5, codeAt (w 10) 10, codeAt (w 11) 0]
    answerTimeout := field (w 11) 5 6
    guardTime := field (w 11) 11 4
    ageing := field (w 12) 0 8
    retry := field (w 12) 8 8
    idleTimeout := field (w 13) 0 8 }

/-- Two ranges of word addresses share an address: each begins at or before the last of the other (R15). -/
def rangesMeet (a na b nb : Nat) : Bool := decide (a < b + nb) && decide (b < a + na)

/-- The eight checks of Table 1-7 in order: the number of the first that fails, or 0. -/
def setupRefusal (page : Nat) (h : HeldSetup) : Nat :=
  let pool := h.poolBase * 32
  let poolWords := h.poolBlocks * 32
  let ring := h.ringBase * 64
  let ringWords := 64 * 2 ^ h.ringCode
  if h.poolBlocks < 16 ∨ h.poolBlocks > 2048 then 1
  else if (h.poolBase + h.poolBlocks) * 32 > 262144 then 2
  else if h.ringCode > 6 ∨ ring + ringWords > 262144 then 3
  else if rangesMeet pool poolWords ring ringWords || rangesMeet pool poolWords page 1024
      || rangesMeet ring ringWords page 1024 then 4
  else if h.som = h.eom then 5
  else if ¬ h.precedence.Nodup then 6
  else if h.answerTimeout = 0 ∨ h.guardTime = 0 then 7
  else if h.retry = 0 ∨ h.idleTimeout < 8 then 8
  else 0

/-! ## Line settings word (Table 12-7) -/

/-- The settings a line settings word carries; stop code 3 is taken as 2 units (R42). -/
def parseSettings (v : Word) : Settings :=
  { divisor := v.extractLsb' 0 12
    by8 := v.getLsbD 12
    stop := match field v 13 2 with
      | 0 => .one
      | 1 => .oneAndHalf
      | _ => .two
    type := if v.getLsbD 15 then .party else .pointToPoint }

/-! ## Station shadow words (Table 12-6) -/

/-- The service code; 3 is taken as OUT OF SERVICE (R87). -/
def parseService (c : Nat) : Service :=
  match c with
  | 0 => .inService
  | 2 => .diverted
  | _ => .outOfService

/-- A shadow write replaces the fields its word carries (R87, Table 5-2). -/
def shadowWrite (e : Station) (word : Nat) (v : Word) : Station :=
  match word with
  | 0 => { e with valid := v.getLsbD 15, service := parseService (field v 8 2), line := v.extractLsb' 0 5 }
  | 1 => { e with code := v.extractLsb' 0 10 }
  | 2 => { e with
      callCode := if v.getLsbD 15 then some (v.extractLsb' 0 10) else none
      confirm := v.getLsbD 14 }
  | _ => { e with divert := v }

/-! ## Message head (Table 12-5) -/

/-- Head word 2: block count, held reason. -/
def headWord2 (blockCount reason : Nat) : Word := BitVec.ofNat 16 (blockCount % 256 + reason % 8 * 256)

/-- Head word 3: class, origin line and flags. -/
def headWord3 (cls origin : Nat) (complete mutilated truncated headerFault incomplete autoRelease directed : Bool) :
    Word :=
  BitVec.ofNat 16 (cls % 8 + origin % 32 * 8 + bit complete 8 + bit mutilated 9 + bit truncated 10
    + bit headerFault 11 + bit incomplete 12 + bit autoRelease 13 + bit directed 14)

/-- Head word 6: destination count, outstanding deliveries. -/
def headWord6 (destCount outstanding : Nat) : Word := BitVec.ofNat 16 (destCount % 256 + outstanding % 256 * 256)

/-! ## Report record (Tables 12-9 and 12-10) -/

/-- The kind numbers of Table 11-1. -/
def ReportKind.number : ReportKind → Nat
  | .messageRouted => 1
  | .messageHeld => 2
  | .messageAbandoned => 3
  | .deliveryDone => 4
  | .deliveryInterrupted => 5
  | .deliveryFailed => 6
  | .deliveryCancelled => 7
  | .stationUnanswered => 8
  | .messageReleased => 9
  | .messageReturned => 10
  | .postRefused => 11
  | .cancelRefused => 12
  | .guardViolation => 13
  | .commit => 14
  | .lineFault => 15
  | .lineRestored => 16
  | .holdLatched => 17
  | .holdResumed => 18

/-- The low 16 bits of a time (R57). -/
def time16 (t : BitVec 32) : Word := t.setWidth 16

/-- Word `w` of a record (R187, Table 12-9). -/
def Record.word (r : Record) : Nat → Word
  | 0 => BitVec.ofNat 16 (r.kind.number + r.qualifier % 8 * 32 + r.line % 32 * 256)
  | 1 => r.block
  | 2 => r.detail
  | _ => time16 r.time

/-- A detail of two parts: bits 0-7 and bits 8-15 (Table 12-10). -/
def detail2 (low high : Nat) : Word := BitVec.ofNat 16 (low % 256 + high % 256 * 256)

end Sys2Proof.Machine
end

