-- ==== Sys2Proof/Machine/Flags.lean ====
section
/-! DEFINITION. Conditions and status words computed from the state: PWAIT and ATTN, the live words and the office
and line status words, the idle point, echo, the effective class and the conditions of a selection. -/

namespace Sys2Proof.Machine

/-- The office is RUNNING (R12). -/
def running (s : State) : Bool := s.office.state == .running

/-- PWAIT is asserted: a processor access is held by reset, waits for the store, or is in its store cycle
(R1, R2, R18). -/
def pwait (s : State) : Bool :=
  s.path.held.isSome || s.port.fwd.isSome ||
    (match s.port.cycle with
      | some (.forwarded _) => true
      | _ => false)

/-- The condition of R185 for ATTN. -/
def attnCondition (s : State) : Bool :=
  !s.resetIn && running s && (s.report.write != s.report.read || s.report.overflow || s.office.holdLatch)

/-- The held count of the report ring, fill index - read index (R182). -/
def heldCount (s : State) : Nat := (s.report.fill - s.report.read).toNat

/-! ## Lines -/

/-- The idle point of a line (R129). -/
def idlePoint (l : LineUnit) : Bool :=
  (l.tx.state == .off || l.tx.state == .idle) &&
    (l.rx.state == .off || (l.rx.state == .hunting && l.sampler.state != .inCharacter))

/-- The line's active type is party (R142). -/
def isParty (l : LineUnit) : Bool := l.active.type == .party

/-- A character completing now is an echo (R143). -/
def echoes (l : LineUnit) : Bool :=
  isParty l && (l.tx.state == .preamble || l.tx.state == .calling || l.tx.state == .sending || l.tx.state == .breakIn)

/-- The effective divisor De (R43). -/
def effectiveDivisor (st : Settings) : Nat := if st.divisor.toNat < 63 then 63 else st.divisor.toNat

/-- The sample period P x (De + 1) in reference cycles (R43). -/
def samplePeriod (st : Settings) : Nat := (if st.by8 then 8 else 1) * (effectiveDivisor st + 1)

/-- A byte of text that makes a frame: a code, or LOST (R133). -/
def isSent (b : Byte) : Bool := decide (b.toNat < 32) || b == Config.lost

/-- Truncation: in TEXT at a stored length of 3934 (R74). -/
def truncating (r : Receiver) : Bool := r.state == .text && decide (Config.truncationLength ≤ r.asm.storedLength)

/-- The next text position lies in a block the chain does not yet have (R67). -/
def needsBlock (a : Assembly) : Bool := decide (a.blockCount ≤ chainIndex a.storedLength)

/-- The conditions of a take, for a receiver that is not starved (R63). -/
def mayTake (starved : Bool) (r : Receiver) : Bool :=
  !starved && (r.state == .hunting || r.state == .header || r.state == .text) && r.asm.awaiting.isEmpty
    && r.unplaced.isNone && !r.fifo.isEmpty

/-- The conditions of an idle close (R78). -/
def mayIdleClose (starved : Bool) (r : Receiver) : Bool :=
  !starved && (r.state == .header || r.state == .text) && r.idleClose && r.closePoint == 0
    && r.asm.awaiting.isEmpty && r.unplaced.isNone

/-- A text character is ready: a byte that is sent stands at the front and the effective length is known (R133). -/
def textReady (t : Transmitter) : Bool :=
  t.lenKnown && (match t.holding with
    | b :: _ => isSent b
    | [] => false)

/-- An underrun pause (R134). -/
def inPause (t : Transmitter) : Bool :=
  t.state == .sending && t.sending.isNone && t.owed.isNone && t.opening.isEmpty && !textReady t

/-- Nothing further is to be sent for the delivery in hand (R135). -/
def textEnded (t : Transmitter) : Bool :=
  t.opening.isEmpty && t.lenKnown && t.holding.isEmpty && decide (t.effLen ≤ t.readPos)

/-- A frame is in progress (R121). -/
def frameInProgress (t : Transmitter) : Bool :=
  match t.sending with
  | some ⟨.frame _ _, _⟩ => true
  | _ => false

/-- A frame or a break-in is in progress (R125). -/
def frameOrBreakIn (t : Transmitter) : Bool :=
  match t.sending with
  | some ⟨.preamble, _⟩ => false
  | some _ => true
  | none => false

/-- No frame is in progress in CALLING, ANSWER WAIT or SENDING (R161). -/
def betweenFrames (t : Transmitter) : Bool :=
  (t.state == .calling || t.state == .answerWait || t.state == .sending) && t.sending.isNone

/-- The backoff count of line n has reached its length while the line is still backing off: its expiry is brought about and
not yet taken (R55, R150). -/
def backoffExpired (n : LineNo) (t : Transmitter) : Bool :=
  t.backingOff && t.backoffCount.any (fun k => decide (64 * (n.val % 4 + 1) ≤ k))

/-- The line is enabled: its transmitter is not OFF (R141). -/
def enabled (l : LineUnit) : Bool := l.tx.state != .off

/-- The cancel pending of the delivery in hand (R116, R141). -/
def cancelInHand (s : State) (l : LineUnit) : Bool :=
  match l.tx.hand with
  | some h => s.du.entries[h.number].cancelPending
  | none => false

/-! ## Deliveries -/

/-- The effective class of a delivery entry at the present clock (R107). -/
def effectiveClass (s : State) (e : Delivery) : Nat :=
  let clock := s.office.clock.toNat
  let waited := if e.queuedTime.toNat ≤ clock then clock - e.queuedTime.toNat else 0
  if s.office.held.ageing = 0 ∨ e.cls = 0 then e.cls
  else max 1 (e.cls - waited / s.office.held.ageing)

/-- The entry with the smallest effective class, nearest the head among equals (R109). -/
def pickBest (s : State) : List DeliveryNo → Option DeliveryNo
  | [] => none
  | d :: rest =>
    match pickBest s rest with
    | none => some d
    | some e => if effectiveClass s s.du.entries[e] < effectiveClass s s.du.entries[d] then some e else some d

/-- The conditions under which a selection is made (R108). -/
def maySelect (s : State) (n : LineNo) : Bool :=
  let l := s.lines[n]
  enabled l && !l.tx.stopping && !s.office.holdLatch && s.du.active[n].isNone &&
    (match l.active.type with
      | .pointToPoint => !l.faulted
      | .party => !l.tx.backingOff)

/-- The delivery a selection for line n chooses, or none for "no work" (R108, R109). -/
def selection (s : State) (n : LineNo) : Option DeliveryNo :=
  if maySelect s n then pickBest s s.du.queues[n] else none

/-- The number of FREE delivery entries (R100). -/
def freeDeliveries (s : State) : Nat := (s.du.entries.toList.filter (fun e => e.state == .free)).length

/-- The number of FREE transit entries (R100). -/
def freeTransits (s : State) : Nat := (s.du.transit.toList.filter (fun t => t.state == .free)).length

/-! ## Status words -/

/-- Office state in the status word: LOADING for both its stages (R12, Table 12-4). -/
def OfficeState.number : OfficeState → Nat
  | .dormant => 0
  | .setupRead => 1
  | .poolBuild => 1
  | .running => 2

/-- The office status word (R17, R186, Table 12-4). -/
def officeStatus (s : State) : Word :=
  let high := if running s then s.report.tally else s.office.refusal
  BitVec.ofNat 16 (s.office.state.number + bit s.office.setupLocked 2 + bit s.office.holdLatch 3
    + bit s.pins.hold 4 + bit s.office.holdStill 5 + bit s.report.overflow 6 + bit s.report.badRead 7
    + high % 256 * 256)

/-- Receiver state in line status word 1; OFF shows 0 (Table 12-8). -/
def RxState.number : RxState → Nat
  | .off => 0
  | .hunting => 0
  | .header => 1
  | .text => 2
  | .closing => 3

/-- Transmitter state in line status word 1 (Table 12-8). -/
def TxState.number : TxState → Nat
  | .off => 0
  | .preamble => 1
  | .idle => 2
  | .guarding => 3
  | .calling => 4
  | .answerWait => 5
  | .sending => 6
  | .breakIn => 7
  | .held => 8
  | .pause => 9

/-- Line status word 1 (R84, R141, Table 12-8). -/
def lineStatus1 (s : State) (n : LineNo) : Word :=
  let l := s.lines[n]
  BitVec.ofNat 16 (l.rx.state.number + bit (s.pool.starved.contains n) 2 + bit l.faulted 3 + bit l.rx.noise 4
    + l.tx.state.number * 32 + bit (enabled l) 9 + bit l.tx.stopping 10 + bit l.settingsPending 11
    + bit (isParty l) 12 + bit (decide (l.active.divisor.toNat < 63)) 13 + bit (cancelInHand s l) 14
    + bit l.tx.breakInPending 15)

/-- Line status word 2 (R117, Table 12-3). -/
def lineStatus2 (s : State) (n : LineNo) : Word :=
  detail2 (min 255 s.du.queues[n].length) (match s.du.active[n] with
    | some d => d.val
    | none => 255)

/-- The error tally word (R56, Table 12-3). -/
def tallyWord (s : State) (n : LineNo) : Word := detail2 s.lines[n].framing s.lines[n].overrun

/-- A live word other than the claim word, as RUNNING answers it (R6, Table 1-3). -/
def liveWord (s : State) (off : Nat) : Option Word :=
  if off = 32 then some (officeStatus s)
  else if off = 33 then some (BitVec.ofNat 16 s.pool.free.length)
  else if off = 35 then some (s.office.clock.setWidth 16)
  else if off = 36 then some (s.office.clock.extractLsb' 16 16)
  else if off = 37 then some s.report.write
  else if off = 38 then some (BitVec.ofNat 16 (freeDeliveries s))
  else if off = 39 then some (BitVec.ofNat 16 (freeTransits s))
  else if h : 64 ≤ off ∧ off < 112 then
    let n : LineNo := ⟨(off - 64) / 2, by omega⟩
    some (if off % 2 = 0 then lineStatus1 s n else lineStatus2 s n)
  else if h : 192 ≤ off ∧ off < 216 then some (tallyWord s ⟨off - 192, by omega⟩)
  else none

end Sys2Proof.Machine
end

