-- ==== Sys2Proof/Machine/Ops.lean ====
section
/-! DEFINITION. The named operations shared by every meaning: updates of one line, of one table entry and of the
pool's map; the Store Port's queue, waiting list and cycles (R8 to R11); the Report Unit's offers and words (R182,
R183); and `settle`-free outcomes. -/

namespace Sys2Proof.Machine

/-! ## Updates -/

/-- Change line n. -/
def updLine (n : LineNo) (f : LineUnit → LineUnit) (s : State) : State :=
  { s with lines := s.lines.set n.val (f s.lines[n]) n.isLt }

/-- Change the receiver of line n. -/
def updRx (n : LineNo) (f : Receiver → Receiver) : State → State := updLine n (fun l => { l with rx := f l.rx })

/-- Change the assembly record of line n. -/
def updAsm (n : LineNo) (f : Assembly → Assembly) : State → State := updRx n (fun r => { r with asm := f r.asm })

/-- Change the transmitter of line n. -/
def updTx (n : LineNo) (f : Transmitter → Transmitter) : State → State := updLine n (fun l => { l with tx := f l.tx })

/-- Change delivery entry d. -/
def updEntry (d : DeliveryNo) (f : Delivery → Delivery) (s : State) : State :=
  { s with du := { s.du with entries := s.du.entries.set d.val (f s.du.entries[d]) d.isLt } }

/-- Change transit entry t. -/
def updTransit (t : TransitNo) (f : Transit → Transit) (s : State) : State :=
  { s with du := { s.du with transit := s.du.transit.set t.val (f s.du.transit[t]) t.isLt } }

/-- Change line n's queue. -/
def updQueue (n : LineNo) (f : List DeliveryNo → List DeliveryNo) (s : State) : State :=
  { s with du := { s.du with queues := s.du.queues.set n.val (f s.du.queues[n]) n.isLt } }

/-- Set line n's active place. -/
def setActive (n : LineNo) (a : Option DeliveryNo) (s : State) : State :=
  { s with du := { s.du with active := s.du.active.set n.val a n.isLt } }

/-- Mark block b in the block map (R21). -/
def setBlock (b : Nat) (v : BlockState) (s : State) : State :=
  { s with pool := { s.pool with map := s.pool.map.set b v } }

/-- The state of block b, if the pool has it (R21). -/
def blockState (s : State) (b : Nat) : Option BlockState := s.pool.map[b]?

/-- Change the Store Port. -/
def updPort (f : StorePort → StorePort) (s : State) : State := { s with port := f s.port }

/-- Change Office Control. -/
def updOffice (f : OfficeControl → OfficeControl) (s : State) : State := { s with office := f s.office }

/-- Change the Report Unit. -/
def updReport (f : ReportUnit → ReportUnit) (s : State) : State := { s with report := f s.report }

/-- Change the Chain Walker. -/
def updWalker (f : ChainWalker → ChainWalker) (s : State) : State := { s with walker := f s.walker }

/-! ## The Store Port (R8 to R11) -/

/-- R10: while the bus is free and work waits, the next cycle begins, in turn when both kinds wait. -/
def startCycle (s : State) : State :=
  match s.port.cycle with
  | some _ => s
  | none =>
    match s.port.fwd, s.port.queue with
    | none, [] => s
    | some a, [] => updPort (fun p => { p with fwd := none, cycle := some (.forwarded a), lastServed := .processor }) s
    | none, r :: rest =>
      updPort (fun p => { p with queue := rest, cycle := some (.internal r), lastServed := .internal }) s
    | some a, r :: rest =>
      match s.port.lastServed with
      | .internal => updPort (fun p => { p with fwd := none, cycle := some (.forwarded a), lastServed := .processor }) s
      | .processor =>
        updPort (fun p => { p with queue := rest, cycle := some (.internal r), lastServed := .internal }) s

/-- R9: an offered request joins at once when a place is free and no issuer waits. -/
def admits (s : State) : Bool := decide (s.port.queue.length < Config.queuePlaces) && s.port.waiting.isEmpty

/-- A request joins the tail of the internal request queue, and its cycle begins at once if the bus is free
(R8, R10). -/
def place (r : Req) (s : State) : State := startCycle (updPort (fun p => { p with queue := p.queue ++ [r] }) s)

/-- An issuer joins the tail of the waiting list, which holds no issuer twice (R9). -/
def waitFor (i : Issuer) (s : State) : State :=
  if s.port.waiting.contains i then s else updPort (fun p => { p with waiting := p.waiting ++ [i] }) s

/-- An issuer leaves the waiting list (R9). -/
def leaveWaiting (i : Issuer) (s : State) : State :=
  updPort (fun p => { p with waiting := p.waiting.filter (fun j => j != i) }) s

/-- The number of internal requests of an issuer in the queue or in the cycle in progress. -/
def placedCount (i : Issuer) (s : State) : Nat :=
  (s.port.queue.filter (fun r => r.issuer == i)).length +
    (match s.port.cycle with
      | some (.internal r) => if r.issuer == i then 1 else 0
      | _ => 0)

/-- An issuer's requests are offered one after another while the queue admits them; then the issuer waits (R9).
`next` is the request the issuer offers now and `placed` what its placement brings about. The queue takes at most
`Config.queuePlaces` + 1 requests in one event, so the fuel of `pumpFuel` is never used up. -/
def pump (i : Issuer) (next : State → Option Req) (placed : State → State) : Nat → State → State
  | 0, s => s
  | k + 1, s =>
    match next s with
    | none => s
    | some r => if admits s then pump i next placed k (placed (place r s)) else waitFor i s

/-- Enough rounds for `pump`. -/
def pumpFuel : Nat := Config.queuePlaces + 2

/-- A read request. -/
def readReq (a : Addr) (i : Issuer) (p : Purpose) : Req := { addr := a, write := none, issuer := i, purpose := p }

/-- A word write request (R8). -/
def wordReq (a : Addr) (v : Word) (i : Issuer) (p : Purpose) : Req :=
  { addr := a, write := some ⟨v, .both⟩, issuer := i, purpose := p }

/-- A byte write request of the high or the low byte (R8). DESIGN CHOICE (log 41): the other byte lane, which is not
written, carries the same byte. -/
def byteReq (a : Addr) (high : Bool) (v : Byte) (i : Issuer) (p : Purpose) : Req :=
  { addr := a, write := some ⟨v ++ v, ⟨high, !high⟩⟩, issuer := i, purpose := p }

/-! ## The Report Unit (R181 to R187) -/

/-- The word the Report Unit offers next: of the record at the head of its list (R183). -/
def nextReportWord (s : State) : Option Req :=
  match s.report.records with
  | [] => none
  | (x, r) :: _ =>
    some (wordReq (ringWord s x s.report.wordNext) (r.word s.report.wordNext) .report
      (.reportWord (s.report.wordNext == 3)))

/-- A report word is placed; a record leaves the list with its word 3 (R183). -/
def reportWordPlaced (s : State) : State :=
  updReport (fun p => if p.wordNext = 3 then { p with records := p.records.tail, wordNext := 0 }
    else { p with wordNext := p.wordNext + 1 }) s

/-- The Report Unit offers what it can (R183). -/
def pumpReport (s : State) : State := pump .report nextReportWord reportWordPlaced pumpFuel s

/-- An offer is accepted at the fill index, or discarded and counted (R182). -/
def acceptReport (r : Record) (s : State) : State :=
  if heldCount s < ringSize s then
    updReport (fun p => { p with records := p.records ++ [(p.fill, r)], fill := p.fill + 1 }) s
  else
    updReport (fun p => { p with overflow := true, tally := min 255 (p.tally + 1) }) s

/-- The Report Unit takes an offer: it is settled (R182), and what can be written is (R183). -/
def takeReport (r : Record) (s : State) : State := pumpReport (acceptReport r s)

/-- A block offers a report (R182); the Report Unit takes it as the event ends (`takeOffers`). -/
def offerReport (r : Record) : State → State :=
  updReport (fun p => { p with offers := p.offers ++ [{ record := r, attached := false, ending := none }] })

/-- The reports attached to a head rewrite are offered in their order at its placement (R104), before the walk request that
is attached to it is handed over (R177). -/
def offerAttached (rs : List Record) (walk : Option WalkRequest) : State → State :=
  updReport (fun p => { p with
    offers := p.offers ++ rs.map (fun r => { record := r, attached := true, ending := walk.bind (fun q => q.transit) }) })

/-- The block that made a report (Table 11-1). -/
def Record.owner (r : Record) : Owner :=
  match r.kind with
  | .messageRouted => .router
  | .messageHeld => .walker
  | .messageAbandoned => if r.block = Config.none16 then .receiver r.line else .walker
  | .deliveryDone => .delivery
  | .deliveryInterrupted => .delivery
  | .deliveryFailed => .delivery
  | .deliveryCancelled => .delivery
  | .stationUnanswered => .delivery
  | .messageReleased => .walker
  | .messageReturned => .walker
  | .postRefused => if r.detail = 7 ∨ r.detail = 8 then .post else .walker
  | .cancelRefused => .delivery
  | .guardViolation => .pool
  | .commit => .router
  | .lineFault => .lineUnit r.line
  | .lineRestored => .lineUnit r.line
  | .holdLatched => .office
  | .holdResumed => .office

/-- Every offer is of one owner. -/
def oneOwner : List Offer → Bool
  | [] => true
  | o :: rest => rest.all (fun p => p.record.owner == o.record.owner)

/-- The rules order offer `x` before `y`, which was made after it at the same event: both are of one owner (R187), or `y`
waited on a head rewrite and `x` is HOLD LATCHED (R167). -/
def ordersOffers (x y : Offer) : Bool :=
  x.record.owner == y.record.owner || (x.record.kind == .holdLatched && y.attached)

/-- The places of `os` in this order keep what the rules order. -/
def keepsOrder (os : List Offer) : List Nat → Bool
  | [] => true
  | i :: rest =>
    rest.all (fun j => match os[j]?, os[i]? with
      | some x, some y => !(decide (j < i) && ordersOffers x y)
      | _, _ => true) && keepsOrder os rest

/-- The offers of one event in the order in which they are taken: reports of different owners stand in either order (R182,
R187), which a free value chooses (log 49). -/
def arrangeOffers (k : Nat) (os : List Offer) : List Offer :=
  let order := Config.offerOrder k os.length
  if oneOwner os then os
  else if order.isPerm (List.range os.length) && keepsOrder os order then order.filterMap (fun i => os[i]?)
  else os

/-- How many of the offers are taken until none that `p` asks for is left. -/
def offersUntil (p : Offer → Bool) (os : List Offer) : Nat := os.length - (os.reverse.takeWhile (fun o => !p o)).length

/-- The Report Unit takes offers of the event, one after the other (R182), until none that `p` asks for is left. -/
def takeUntil (p : Offer → Bool) (s : State) : State :=
  let os := arrangeOffers s.freeCount s.report.offers
  if s.report.offers.any p then
    (os.take (offersUntil p os)).foldl (fun s o => takeReport o.record s)
      { s with
        freeCount := if oneOwner s.report.offers then s.freeCount else s.freeCount + 1
        report := { s.report with offers := os.drop (offersUntil p os) } }
  else s

/-- The Report Unit takes every offer of the event. -/
def takeOffers (s : State) : State := takeUntil (fun _ => true) s

/-- The Report Unit takes the reports that were handed over before this walk request: the walk begins after them (R177). -/
def takeBefore (r : WalkRequest) (s : State) : State :=
  takeUntil (fun o => o.ending.isSome && o.ending == r.transit) s

/-- A record made now (R187). -/
def record (s : State) (kind : ReportKind) (line : Nat) (block detail : Word) : Record :=
  { kind := kind, qualifier := 0, line := line, block := block, detail := detail, time := s.office.clock }

/-! ## Requests of walks -/

/-- A walk request joins the tail of the walk queue (R31). -/
def askWalk (r : WalkRequest) (s : State) : State := updWalker (fun w => { w with queue := w.queue ++ [r] }) s

/-- The walker's next request: the oldest free-list link write, else the walk's (R32). -/
def nextWalkRequest (s : State) : Option Req :=
  match s.walker.links with
  | l :: _ => some (wordReq (blockWord s l.target 0) (blockNumber l.value) .walker .freeLink)
  | [] =>
    match s.walker.walk with
    | some w => w.todo.head?
    | none => none

/-- The walker's request `r` is placed: it leaves the walker. -/
def walkRequestPlaced (r : Req) (s : State) : State :=
  updWalker (fun w =>
    if r.purpose = .freeLink then { w with offered := none, links := w.links.tail }
    else { w with offered := none, walk := w.walk.map (fun k => { k with todo := k.todo.tail }) }) s

/-- The walker offers its requests one after another (R32); the one that is not admitted stays offered. -/
def pumpWalkerRounds : Nat → State → State
  | 0, s => s
  | k + 1, s =>
    if s.port.waiting.contains .walker then s
    else
      match nextWalkRequest s with
      | none => s
      | some r =>
        if admits s then pumpWalkerRounds k (walkRequestPlaced r (place r s))
        else waitFor .walker (updWalker (fun w => { w with offered := some r }) s)

/-- The walker offers what it can (R32). -/
def pumpWalker (s : State) : State := pumpWalkerRounds pumpFuel s

end Sys2Proof.Machine
end

