-- ==== Sys2Proof/Machine/Pool.lean ====
section
/-! DEFINITION. The Pool Unit: taking the head of the free list, free-list link writes and their dropping, guard
verdicts and guard violation reports (R22 to R30). Returning a block, which may wake a receiver, is in Receive. -/

namespace Sys2Proof.Machine

/-- Change the Pool Unit. -/
def updPool (f : PoolUnit → PoolUnit) (s : State) : State := { s with pool := f s.pool }

/-- Request `r` is the free-list link write into block `b`. -/
def isLinkInto (s : State) (b : Nat) (r : Req) : Bool := r.purpose == .freeLink && r.addr == blockWord s b 0

/-- R23: a free-list link write into block b that has not joined the queue is dropped. If it was the request the
walker had offered and was waiting with, the walker keeps its place with its next request, or leaves the list
(log 17). -/
def dropLinkWrites (b : Nat) (s : State) : State :=
  let dropped := updWalker (fun w => { w with links := w.links.filter (fun l => l.target != b) }) s
  match s.walker.offered with
  | none => dropped
  | some r =>
    if isLinkInto s b r then
      match nextWalkRequest dropped with
      | some q => updWalker (fun w => { w with offered := some q }) dropped
      | none => leaveWaiting .walker (updWalker (fun w => { w with offered := none }) dropped)
    else dropped

/-- The head block of the free list leaves it, takes the state given, and free-list link writes into it that are
not placed are dropped (R24, R25). None when the list is empty. -/
def takeFree (v : BlockState) (s : State) : Option (Nat × State) :=
  match s.pool.free with
  | [] => none
  | b :: rest => some (b, dropLinkWrites b (setBlock b v (updPool (fun p => { p with free := rest }) s)))

/-- A receiver requests a block: it is given the head block OWNED, or joins the tail of the starved list (R25). -/
def requestBlock (n : LineNo) (s : State) : Option Nat × State :=
  match takeFree .owned s with
  | some (b, t) => (some b, t)
  | none =>
    (none, if s.pool.starved.contains n then s else updPool (fun p => { p with starved := p.starved ++ [n] }) s)

/-- A receiver leaves the starved list without a block (R28). -/
def leaveStarved (n : LineNo) (s : State) : State :=
  updPool (fun p => { p with starved := p.starved.filter (fun m => m != n) }) s

/-- A block becomes FREE at the tail of the free list; if the list was not empty a free-list link write into the
previous tail is decided and handed to the walker (R23, R26). -/
def joinFree (b : Nat) (s : State) : State :=
  let joined := setBlock b .free (updPool (fun p => { p with free := p.free ++ [b] }) s)
  match s.pool.free.getLast? with
  | none => joined
  | some x => pumpWalker (updWalker (fun w => { w with links := w.links ++ [⟨x, b⟩] }) joined)

/-- A GUARD VIOLATION report (R30, Table 2-4). -/
def guardViolation (cause : Nat) (block detail : Word) (s : State) : State :=
  offerReport { record s .guardViolation Config.officeLine block detail with qualifier := cause } s

/-- The cause of a suppressed write of a block in this state, or none for a pass verdict (R29). -/
def writeCause : Option BlockState → Option Nat
  | some .held => none
  | some .free => some 1
  | some .owned => some 2
  | none => some 1

/-- A claim: the head block becomes HELD and its number is answered, or NONE (R24). -/
def claimBlock (s : State) : Word × State :=
  match takeFree .held s with
  | some (b, t) => (blockNumber b, t)
  | none => (Config.none16, s)

end Sys2Proof.Machine
end

