-- ==== Sys2Proof/Machine/Delivery.lean ====
section
/-! DEFINITION. The Delivery Unit: head rewrites and their placement (R104), freeing (R114), give-backs (R110 to
R113) and releases from WAITING (R112). What a transmitter does around a give-back is in Transmit. -/

namespace Sys2Proof.Machine

/-- Change the rewrite list. -/
def updRewrites (f : List Rewrite → List Rewrite) (s : State) : State :=
  { s with du := { s.du with rewrites := f s.du.rewrites } }

/-- The address of head word 6 of a transit entry's message (R104). -/
def rewriteAddr (s : State) (t : TransitNo) : Addr := blockWord s s.du.transit[t].first 6

/-- The byte write of the outstanding count into the high byte of head word 6 (R104, R189). -/
def rewriteReq (w : Rewrite) : Req := byteReq w.addr true (BitVec.ofNat 8 w.value) .delivery .rewrite

/-- The rewrite the Delivery Unit offers next: the one at the list's head (R104). -/
def nextRewrite (s : State) : Option Req := s.du.rewrites.head?.map rewriteReq

/-- R104, R177: at a rewrite's placement it leaves the list, its reports are offered in order, and then its walk request
joins the walk queue; the walk begins when they are taken (`takeBefore`). DESIGN CHOICE (log 40): the Delivery Unit offers its next rewrite before the Report Unit offers words of
these reports. -/
def rewritePlaced (s : State) : State :=
  match s.du.rewrites with
  | [] => s
  | w :: rest =>
    let t := offerAttached w.reports w.walk (updRewrites (fun _ => rest) s)
    match w.walk with
    | none => t
    | some r => askWalk r t

/-- The Delivery Unit offers what it can (R104). -/
def pumpDelivery (s : State) : State := pump .delivery nextRewrite rewritePlaced pumpFuel s

/-- R104: a change of the count adds a rewrite, or replaces the value of the one that stands for the same head;
reports and a walk request are attached to it. -/
def addRewrite (addr : Addr) (value : Nat) (reports : List Record) (walk : Option WalkRequest) :
    List Rewrite → List Rewrite
  | [] => [⟨addr, value, reports, walk⟩]
  | w :: rest =>
    if w.addr = addr then ⟨addr, value, w.reports ++ reports, walk.or w.walk⟩ :: rest
    else w :: addRewrite addr value reports walk rest

/-- R104, R114: a report that changes no count is attached to the rewrite still listed for the same head. -/
def attachReport (addr : Addr) (r : Record) : List Rewrite → List Rewrite
  | [] => []
  | w :: rest =>
    if w.addr = addr then { w with reports := w.reports ++ [r] } :: rest else w :: attachReport addr r rest

/-- A report about a delivery that changes no count: attached to the head's rewrite if one is listed, else handed
over at once (R114). -/
def reportWithoutCount (t : TransitNo) (r : Record) (s : State) : State :=
  if s.du.rewrites.any (fun w => w.addr == rewriteAddr s t) then
    updRewrites (attachReport (rewriteAddr s t) r) s
  else offerReport r s

/-- A delivery report: the line and number of the delivery (Table 6-8). -/
def deliveryRecord (s : State) (kind : ReportKind) (d : DeliveryNo) (detail : Word) : Record :=
  record s kind s.du.entries[d].line.val (blockNumber d.val) detail

/-- The walk that ends a message whose count has reached 0: a release walk, or a hand-over walk with reason 0
(R177). -/
def endingWalk (t : TransitNo) (e : Transit) : WalkRequest :=
  { kind := if e.autoRelease then .release else .handOver
    first := e.first, count := e.blockCount, origin := e.origin, reason := 0, transit := some t }

/-- A new outstanding count: the rewrite is decided with its reports; at 0 the entry becomes RELEASING and the
walk request is attached (R103, R104, R177). -/
def changeCount (t : TransitNo) (count : Nat) (reports : List Record) (s : State) : State :=
  let s1 := updTransit t (fun e => { e with outstanding := count,
                                            state := if count = 0 then .releasing else e.state }) s
  let walk := if count = 0 then some (endingWalk t s.du.transit[t]) else none
  pumpDelivery (updRewrites (addRewrite (rewriteAddr s1 t) count reports walk) s1)

/-- Empty line n's active place if it holds d. -/
def clearActive (n : LineNo) (d : DeliveryNo) (s : State) : State :=
  if s.du.active[n] = some d then setActive n none s else s

/-- R114: a delivery entry is freed, leaving its queue or active place; its message's count falls by one and the
reports are attached to that rewrite. -/
def freeEntry (d : DeliveryNo) (reports : List Record) (s : State) : State :=
  let e := s.du.entries[d]
  let s1 := updEntry d (fun e => { e with state := .free, cancelPending := false }) s
  let s2 := clearActive e.line d (updQueue e.line (fun q => q.filter (fun x => x != d)) s1)
  changeCount e.transit (s.du.transit[e.transit].outstanding - 1) reports s2

/-- The entry is freed as a cancel, with DELIVERY CANCELLED (R110, R115). -/
def cancelEntry (d : DeliveryNo) (s : State) : State :=
  freeEntry d [deliveryRecord s .deliveryCancelled d (blockNumber s.du.entries[d].transit.val)] s

/-- R110, completion: freed with DELIVERY DONE; a pending cancel makes CANCEL REFUSED, reason 2, after it (R135). -/
def completeEntry (d : DeliveryNo) (s : State) : State :=
  let done := deliveryRecord s .deliveryDone d (blockNumber s.du.entries[d].transit.val)
  let refused := if s.du.entries[d].cancelPending then [deliveryRecord s .cancelRefused d 2] else []
  freeEntry d (done :: refused) s

/-- The entry returns to the head of its line queue and its active place is emptied (R106, R110). -/
def returnToHead (d : DeliveryNo) (f : Delivery → Delivery) (s : State) : State :=
  let n := s.du.entries[d].line
  clearActive n d (updQueue n (fun q => d :: q) (updEntry d (fun e => { f e with state := .queued }) s))

/-- DELIVERY INTERRUPTED with its reason (R110, R114). -/
def reportInterrupted (d : DeliveryNo) (reason : Nat) (s : State) : State :=
  reportWithoutCount s.du.entries[d].transit (deliveryRecord s .deliveryInterrupted d (BitVec.ofNat 16 reason)) s

/-- R110, interruption: back to the head with attempts unchanged, the repeat flag set if SENDING had begun; with
cancel pending the entry is freed as a cancel instead. -/
def interruptEntry (d : DeliveryNo) (reason : Nat) (begun : Bool) (s : State) : State :=
  if s.du.entries[d].cancelPending then cancelEntry d s
  else reportInterrupted d reason (returnToHead d (fun e => { e with repeatFlag := e.repeatFlag || begun }) s)

/-- DELIVERY FAILED of the whole delivery: reason, station 255 (R113, Table 6-8). -/
def failEntry (d : DeliveryNo) (reason : Nat) (s : State) : State :=
  freeEntry d [deliveryRecord s .deliveryFailed d (detail2 reason 255)] s

/-- R110, failed try to the head: attempts rises, or the delivery fails with reason 1 at attempts 2; DELIVERY
INTERRUPTED, reason 3, is offered first. -/
def failedTryEntry (d : DeliveryNo) (begun : Bool) (s : State) : State :=
  if s.du.entries[d].cancelPending then cancelEntry d s
  else if s.du.entries[d].attempts < 2 then
    reportInterrupted d 3 (returnToHead d
      (fun e => { e with attempts := e.attempts + 1, repeatFlag := e.repeatFlag || begun }) s)
  else failEntry d 1 (reportInterrupted d 3 s)

/-- The retry time Rt x attempts after now, in 32 bits (R111). -/
def retryAt (s : State) (attempts : Nat) : BitVec 32 :=
  s.office.clock + BitVec.ofNat 32 (s.office.held.retry * attempts)

/-- R110, R111, failed try set aside: WAITING with a retry time, or failed with reason 2 at attempts 2. -/
def setAsideEntry (d : DeliveryNo) (s : State) : State :=
  let e := s.du.entries[d]
  if e.cancelPending then cancelEntry d s
  else if e.attempts < 2 then
    clearActive e.line d (updEntry d (fun e =>
      { e with attempts := e.attempts + 1, state := .waiting, retryTime := retryAt s (e.attempts + 1) }) s)
  else failEntry d 2 s

/-- The lowest-numbered entry for which `p` holds (R102). -/
def lowest {n : Nat} (p : Fin n → Bool) : Option (Fin n) := (List.finRange n).find? p

/-- The lowest-numbered FREE delivery entry (R102). -/
def lowestFreeDelivery (s : State) : Option DeliveryNo := lowest (fun d => s.du.entries[d].state == .free)

/-- The lowest-numbered FREE transit entry (R102). -/
def lowestFreeTransit (s : State) : Option TransitNo := lowest (fun t => s.du.transit[t].state == .free)

/-- R155: a DELIVERY FAILED report for one station. -/
def reportStationFailed (d : DeliveryNo) (reason : Nat) (m : Member) (s : State) : State :=
  reportWithoutCount s.du.entries[d].transit (deliveryRecord s .deliveryFailed d (detail2 reason m.station.val)) s

/-- R155: the unanswered members leave the ACTIVE delivery's call set; they are failed one by one at attempts 2 or
with no free entry, else split off into a new WAITING entry with STATION UNANSWERED. DESIGN CHOICE (log 39): R111 and Table
8-2 make the entry WAITING in no queue, R105, Table 6-3 and R106 say QUEUED at the tail; the former is followed. -/
def splitUnanswered (d : DeliveryNo) (s : State) : State :=
  let e := s.du.entries[d]
  let lost := e.callSet.filter (fun m => !m.answered)
  let s1 := updEntry d (fun e => { e with callSet := e.callSet.filter (fun m => m.answered) }) s
  if 2 ≤ e.attempts then lost.foldl (fun s m => reportStationFailed d 2 m s) s1
  else
    match lowestFreeDelivery s with
    | none => lost.foldl (fun s m => reportStationFailed d 3 m s) s1
    | some k =>
      let s2 := updEntry k (fun _ =>
        { state := .waiting, transit := e.transit, line := e.line, cls := e.cls, queuedTime := e.queuedTime,
          attempts := e.attempts + 1, repeatFlag := false, retryTime := retryAt s (e.attempts + 1),
          cancelPending := false, callSet := lost.map (fun m => { m with answered := false }) }) s1
      changeCount e.transit (s.du.transit[e.transit].outstanding + 1)
        [deliveryRecord s2 .stationUnanswered k (detail2 d.val lost.length)] s2

/-- The answered flag of one member, by its place from 1 in the call set, is set (R151, R153). -/
def setAnswered (d : DeliveryNo) (pos : Nat) (s : State) : State :=
  updEntry d (fun e => { e with callSet := e.callSet.modify (pos - 1) (fun m => { m with answered := true }) }) s

/-- R109 at the Delivery Unit: the chosen entry leaves the queue, becomes ACTIVE in the active place, and the
answered flags of its call set are cleared. -/
def makeActive (n : LineNo) (d : DeliveryNo) (s : State) : State :=
  setActive n (some d) (updQueue n (fun q => q.filter (fun x => x != d))
    (updEntry d (fun e => { e with state := .active,
                                   callSet := e.callSet.map (fun m => { m with answered := false }) }) s))

/-- What the Delivery Unit hands the transmitter at a selection (R109). -/
def handOf (d : DeliveryNo) (s : State) : Hand :=
  let e := s.du.entries[d]
  { number := d, first := s.du.transit[e.transit].first, callSet := e.callSet, repeatFlag := e.repeatFlag }

end Sys2Proof.Machine
end

