-- ==== Sys2Proof/Machine/Transmit.lean ====
section
/-! DEFINITION. The transmitters' shared operations: sendings (R121, R122), text reads (R131 to R133), entry to IDLE
with the settings transfer and the selection (R108, R129, R139, R144), the deferred requests (R136 to R138, R161),
the enqueue of a delivery and its preemption test (R106, R160), and the release of WAITING entries (R112). -/

namespace Sys2Proof.Machine

/-! ## Sendings (R44, R45, R121) -/

/-- Samples of a sending (R44, R45). -/
def SendKind.length : SendKind → Nat
  | .frame _ .one => 56
  | .frame _ .oneAndHalf => 60
  | .frame _ .two => 64
  | .preamble => 64
  | .breakIn => 192

/-- The send level (true for mark) at sample `i` of a sending (Table 3-2, R45). -/
def SendKind.level : SendKind → Nat → Bool
  | .frame c _, i => if i < 8 then false else if i < 48 then c.getLsbD (i / 8 - 1) else true
  | .preamble, _ => true
  | .breakIn, i => decide (128 ≤ i)

/-- A sending begins: this tick is its sample 0 (R45). -/
def beginSending (n : LineNo) (k : SendKind) : State → State :=
  updTx n (fun t => { t with sending := some ⟨k, 0⟩, send := k.level 0 })

/-- The sending in progress is abandoned and the send level goes to mark at once (R45). -/
def abandonSending (n : LineNo) : State → State := updTx n (fun t => { t with sending := none, send := true })

/-! ## Reads of head, text and links (R131, R132) -/

/-- The transmitter offers what it can (R9). -/
def pumpTx (n : LineNo) (s : State) : State :=
  pump (.transmitter n) (fun s => s.lines[n].tx.out.head?)
    (updTx n (fun t => { t with out := t.out.tail, live := t.live + 1 })) pumpFuel s

/-- The transmitter offers reads (R9). -/
def offerReads (n : LineNo) (rs : List Req) (s : State) : State :=
  pumpTx n (updTx n (fun t => { t with out := t.out ++ rs }) s)

/-- Unplaced reads are withdrawn, and placed reads will complete and be discarded (R126, R137, R161). -/
def dropReads (n : LineNo) (s : State) : State :=
  leaveWaiting (.transmitter n)
    (updTx n (fun t => { t with out := [], stale := t.stale + t.live, live := 0 }) s)

/-- The read that R132 calls for now: the text word of the read position, or the link word of the current block when
the read position has passed it. -/
def nextFetch (n : LineNo) (s : State) : Option Req :=
  let t := s.lines[n].tx
  if t.state = .sending ∧ t.holding = [] ∧ t.out = [] ∧ t.live = 0 ∧ t.lenKnown ∧ t.readPos < t.effLen then
    if t.curIndex < chainIndex t.readPos then
      some (readReq (blockWord s t.curBlock 0) (.transmitter n) .txLink)
    else some (readReq (blockWord s t.curBlock (textWord t.readPos)) (.transmitter n) .txText)
  else none

/-- Markers at the front of the holding are passed over, and an empty holding fetches (R132, R133). -/
def advanceText (n : LineNo) (s : State) : State :=
  let s1 := updTx n (fun t => { t with holding := t.holding.dropWhile (fun b => !isSent b) }) s
  match nextFetch n s1 with
  | some r => offerReads n [r] s1
  | none => s1

/-- The code a text byte is sent as (R133). -/
def sentCode (s : State) (b : Byte) : Code := if b = Config.lost then s.office.held.substitute else b.setWidth 5

/-- The first thing that applies begins: an owed sending, the next data character, or mark (R122). -/
def beginNext (n : LineNo) (s : State) : State :=
  let l := s.lines[n]
  match l.tx.owed with
  | some .preamble => beginSending n .preamble (updTx n (fun t => { t with owed := none }) s)
  | some .breakIn => beginSending n .breakIn (updTx n (fun t => { t with owed := none }) s)
  | none =>
    if l.tx.state = .sending ∨ l.tx.state = .calling then
      match l.tx.opening with
      | c :: rest => beginSending n (.frame c l.active.stop) (updTx n (fun t => { t with opening := rest }) s)
      | [] =>
        match l.tx.holding with
        | b :: rest =>
          if textReady l.tx then
            advanceText n (beginSending n (.frame (sentCode s b) l.active.stop)
              (updTx n (fun t => { t with holding := rest }) s))
          else abandonSending n s
        | [] => abandonSending n s
    else abandonSending n s

/-! ## Taking a delivery (R109, R130, R131, R151) -/

/-- Entry to SENDING: text begun, read position 0 of the first block, the reads of head word 1 and of the first text
word offered, and LTRS with the repeat notice to send first (R130, R131). -/
def enterSending (n : LineNo) (h : Hand) (s : State) : State :=
  let opening := s.office.held.ltrs :: (if h.repeatFlag then s.office.held.repeatNotice else [])
  offerReads n
    [readReq (blockWord s h.first 1) (.transmitter n) .txHead,
     readReq (blockWord s h.first 16) (.transmitter n) .txText]
    (updTx n (fun t => { t with
      state := .sending, textBegun := true, holding := [], readPos := 0, effLen := 0, lenKnown := false,
      curBlock := h.first, curIndex := 0, opening := opening, callPos := none, answerCount := none,
      answerWindow := [] }) s)

/-- CALLING of the member at call position `pos`: LTRS and the two codes of its call code (R151). -/
def enterCalling (n : LineNo) (pos : Nat) (m : Member) (s : State) : State :=
  updTx n (fun t => { t with
    state := .calling, callPos := some pos, answerCount := none, answerWindow := [],
    opening := [s.office.held.ltrs, m.callCode.extractLsb' 5 5, m.callCode.extractLsb' 0 5] }) s

/-- A selected delivery is taken into hand: a point-to-point line, or an empty call set, goes to SENDING, a party line
calls first (R130, R146, R163). -/
def takeDelivery (n : LineNo) (d : DeliveryNo) (s : State) : State :=
  let s1 := makeActive n d s
  let h := handOf d s1
  let s2 := updTx n (fun t => { t with hand := some h, textBegun := false, guardCount := none }) s1
  match isParty s2.lines[n], h.callSet with
  | true, m :: _ => enterCalling n 1 m s2
  | _, _ => enterSending n h s2

/-- A selection for line n, or what is done when the answer is "no work" (R108, R109). -/
def selectOr (n : LineNo) (noWork : State → State) (s : State) : State :=
  match selection s n with
  | some d => takeDelivery n d s
  | none => noWork s

/-! ## Entry to IDLE (R108, R129, R139, R144) -/

/-- A party transmitter in IDLE is told of its queue: with an entry, and not backing off, it enters GUARD (R144). -/
def tellQueue (n : LineNo) (s : State) : State :=
  if s.du.queues[n] ≠ [] ∧ ¬ s.lines[n].tx.backingOff then
    updTx n (fun t => { t with state := .guarding, guardCount := some 0, send := true }) s
  else s

/-- What an entry to IDLE, or an enqueue in IDLE, leads to: a selection, or word of the queue (R108, R144). -/
def idleOccasion (n : LineNo) (s : State) : State :=
  match s.lines[n].active.type with
  | .pointToPoint => selectOr n id s
  | .party => tellQueue n s

/-- The transfer of the shadow to the active settings; a line made point-to-point loses its backoff (R129, R142). -/
def transferSettings (n : LineNo) : State → State :=
  updLine n (fun l => { l with
    active := l.shadow, settingsPending := false,
    tx := match l.shadow.type with
      | .pointToPoint => { l.tx with backingOff := false, backoffCount := none, backoffVoid := false }
      | .party => l.tx })

/-- R139: a point-to-point line in break recovery goes to PAUSE where a rule would put it in IDLE. -/
def pauses (l : LineUnit) : Bool := !isParty l && l.recovery

/-- The transmitter is put in PAUSE. -/
def enterPause (n : LineNo) : State → State := updTx n (fun t => { t with state := .pause, send := true })

/-- The entry to IDLE once any transfer has been made (R108, R129, R139). -/
def arriveIdle (n : LineNo) (s : State) : State :=
  if pauses s.lines[n] then enterPause n s
  else idleOccasion n (updTx n (fun t => { t with state := .idle, send := true }) s)

/-- A pending transfer is made at the idle point (R129). -/
def transferIfIdle (n : LineNo) (s : State) : State :=
  if s.lines[n].settingsPending && idlePoint s.lines[n] then transferSettings n s else s

/-- Entry to IDLE: PAUSE in break recovery; else the transfer comes before the selection occasion (R129, R139). -/
def enterIdle (n : LineNo) (s : State) : State :=
  if pauses s.lines[n] then enterPause n s
  else arriveIdle n (transferIfIdle n (updTx n (fun t => { t with state := .idle, send := true }) s))

/-- An event at which the idle point may come to hold: a transfer made in IDLE counts as an entry to IDLE (R129). -/
def checkIdlePoint (n : LineNo) (s : State) : State :=
  if s.lines[n].settingsPending && idlePoint s.lines[n] then
    let s1 := transferSettings n s
    if s1.lines[n].tx.state = .idle then arriveIdle n s1 else s1
  else s

/-! ## Dropping the delivery in hand and the deferred requests (R136 to R138, R161) -/

/-- The delivery in hand is dropped, the holding emptied, unplaced reads withdrawn, and the call ended. -/
def dropHand (n : LineNo) (s : State) : State :=
  dropReads n (updTx n (fun t => { t with
    hand := none, textBegun := false, holding := [], opening := [], lenKnown := false, callPos := none,
    answerCount := none, answerWindow := [] }) s)

/-- BREAK-IN is entered with a break-in owed (R137, R156, R161). -/
def enterBreakIn (n : LineNo) : State → State :=
  updTx n (fun t => { t with state := .breakIn, owed := some .breakIn, send := true })

/-- Step 2 of R136: the failed try to the head, then PAUSE, or IDLE when the break is over (R138, R162). -/
def failTryToHead (n : LineNo) (h : Hand) (s : State) : State :=
  let s1 := dropHand n (failedTryEntry h.number s.lines[n].tx.textBegun s)
  enterIdle n (updTx n (fun t => { t with distantBreak := false, breakInPending := false }) s1)

/-- Step 3 of R136: the cancel at the boundary, with its break-in (R137). -/
def cancelAtBoundary (n : LineNo) (h : Hand) (s : State) : State :=
  enterBreakIn n (dropHand n (cancelEntry h.number s))

/-- Step 4 of R136: the victim is interrupted for the flash, with a break-in (R161). -/
def preemptVictim (n : LineNo) (h : Hand) (s : State) : State :=
  enterBreakIn n (dropHand n (interruptEntry h.number 5 s.lines[n].tx.textBegun s))

/-- Steps 2 to 4 of R136: what the first request that applies does, or none. Step 1, stopping, is in Line. -/
def deferredRequest (n : LineNo) (s : State) : Option State :=
  let l := s.lines[n]
  match l.tx.hand with
  | none => none
  | some h =>
    if l.tx.distantBreak && !isParty l then some (failTryToHead n h s)
    else if s.du.entries[h.number].cancelPending then some (cancelAtBoundary n h s)
    else if l.tx.breakInPending then some (preemptVictim n h s)
    else none

/-! ## Enqueue, preemption and release from WAITING (R106, R112, R160) -/

/-- R160: a class-0 enqueue sets break-in pending when the delivery in hand has effective class 2 or more. With no
frame in progress it is acted on at once (R161). -/
def preemptionTest (n : LineNo) (s : State) : State :=
  let l := s.lines[n]
  match l.tx.hand with
  | none => s
  | some h =>
    if (l.tx.state = .calling ∨ l.tx.state = .answerWait ∨ l.tx.state = .sending) ∧ ¬ l.tx.breakInPending
        ∧ 2 ≤ effectiveClass s s.du.entries[h.number] then
      let s1 := updTx n (fun t => { t with breakInPending := true }) s
      if betweenFrames l.tx then (deferredRequest n s1).getD s1 else s1
    else s

/-- R106: entry d joins the tail of its line queue; this may be a selection occasion, word to a party transmitter,
or a preemption test. -/
def enqueue (d : DeliveryNo) (s : State) : State :=
  let n := s.du.entries[d].line
  let s1 := updQueue n (fun q => q ++ [d]) s
  let s2 := if s.du.entries[d].cls = 0 then preemptionTest n s1 else s1
  if s1.lines[n].tx.state = .idle then idleOccasion n s2 else s2

/-- R112: a WAITING entry whose retry time is reached becomes QUEUED and is enqueued. -/
def releaseOne (d : DeliveryNo) (s : State) : State :=
  let e := s.du.entries[d]
  if e.state = .waiting ∧ e.retryTime.toNat ≤ s.office.clock.toNat then
    enqueue d (updEntry d (fun e => { e with state := .queued }) s)
  else s

/-- R112: at each new value of the clock, in ascending delivery number. -/
def releaseWaiting (s : State) : State := (List.finRange 256).foldl (fun s d => releaseOne d s) s

/-- The office clock takes a new value (R57, R59, R112). -/
def setClock (v : BitVec 32) (s : State) : State :=
  releaseWaiting (updOffice (fun o => { o with clock := v, divider := 0 }) s)

end Sys2Proof.Machine
end

