-- ==== Sys2Proof/Machine/Routing.lean ====
section
/-! DEFINITION. The Router: commits of the station table (R88, R89), resolution of destinations, the delivery plan
and the routing event (R90 to R99). -/

namespace Sys2Proof.Machine

/-- The flags of a message that a receiver's close set or left clear (R77, Table 4-5). -/
structure MessageFlags where
  complete : Bool
  mutilated : Bool
  truncated : Bool
  headerFault : Bool
  incomplete : Bool
deriving DecidableEq, Repr

/-- The flags of a posted message, which its head shows clear (R174). -/
def MessageFlags.clear : MessageFlags := ⟨false, false, false, false, false⟩

/-- A message record (R77, R90, R175). -/
structure MessageRecord where
  first : Nat
  blockCount : Nat
  cls : Nat
  origin : Nat
  originStation : Word
  serial : BitVec 16
  /-- the flags of R77; the Router makes no use of them -/
  flags : MessageFlags
  directed : Bool
  /-- the first destination-count entries of the list -/
  dests : List Word
  autoRelease : Bool
deriving DecidableEq, Repr

/-! ## COMMIT STATIONS (R88, R89) -/

/-- The first check of Table 5-3 that the valid shadow entry k fails, or 0. -/
def commitCheck (t : Vector Station 64) (k : StationNo) : Nat :=
  let e := t[k]
  if (List.finRange 64).any (fun j => decide (j < k) && t[j].valid && t[j].code == e.code) then 1
  else if 23 < e.line.toNat then 2
  else if e.service = .diverted ∧ e.divert.toNat = k.val then 3
  else if e.service = .diverted ∧ 64 ≤ e.divert.toNat then 4
  else if e.service = .diverted ∧ ¬ (t.toList.getD e.divert.toNat Station.reset).valid then 5
  else 0

/-- The first valid shadow entry that fails a check, with its reason (R88). -/
def commitFailure (t : Vector Station 64) : Option (StationNo × Nat) :=
  (List.finRange 64).findSome? (fun k =>
    if t[k].valid ∧ commitCheck t k ≠ 0 then some (k, commitCheck t k) else none)

/-- COMMIT STATIONS at its arrival (R88, R89). -/
def commitStations (s : State) : State :=
  match commitFailure s.router.shadow with
  | some (k, reason) =>
    offerReport (record s .commit Config.officeLine (blockNumber k.val) (BitVec.ofNat 16 reason)) s
  | none =>
    let s1 := { s with router := { s.router with active := s.router.shadow } }
    offerReport (record s .commit Config.officeLine
      (blockNumber (s.router.shadow.toList.filter (fun e => e.valid)).length) 0) s1

/-! ## Resolution (R91 to R93) -/

/-- R91: a destination value resolves to a station index of the active table, or to unroutable. -/
def resolve (t : Vector Station 64) (v : Word) : Option StationNo :=
  match lowest (fun k : StationNo => t[k].valid && t[k].code.toNat == v.toNat) with
  | none => none
  | some k =>
    match t[k].service with
    | .inService => some k
    | .outOfService => none
    | .diverted =>
      if h : t[k].divert.toNat < 64 then
        if t[(⟨t[k].divert.toNat, h⟩ : StationNo)].service = .inService then some ⟨t[k].divert.toNat, h⟩ else none
      else none

/-- Later duplicates are dropped, the first stands (R92, R93). -/
def dropDuplicates {α : Type} [DecidableEq α] : List α → List α
  | [] => []
  | x :: rest => x :: (dropDuplicates rest).filter (fun y => y ≠ x)

/-- The routable list of a message that is not directed (R91, R92). -/
def routableStations (t : Vector Station 64) (dests : List Word) : List StationNo :=
  dropDuplicates (dests.filterMap (resolve t))

/-- The unroutable count (R92). -/
def unroutableCount (t : Vector Station 64) (dests : List Word) : Nat :=
  (dests.filter (fun v => (resolve t v).isNone)).length

/-- The line of a station entry; a valid active entry's line is 0..23 (R85). -/
def stationLine (e : Station) : LineNo := if h : e.line.toNat < 24 then ⟨e.line.toNat, h⟩ else 0

/-- The lines of a directed message (R93); the posting walk has refused every line above 23. -/
def directedLines (dests : List Word) : List LineNo :=
  dropDuplicates (dests.filterMap (fun v => if h : v.toNat < 24 then some ⟨v.toNat, h⟩ else none))

/-! ## The delivery plan (R94, R95) -/

/-- A planned delivery: its line and its call set. -/
structure Planned where
  line : LineNo
  callSet : List Member
deriving DecidableEq, Repr

/-- The member of a station with a call code, copied from the active table (R95). -/
def memberOf (t : Vector Station 64) (k : StationNo) : Option Member :=
  t[k].callCode.map (fun c => { station := k, callCode := c, confirm := t[k].confirm, answered := false })

/-- The called stations of a party line in groups of four, in order (R95); a line has at most 8. -/
def callSets (ms : List Member) : List (List Member) :=
  match ms with
  | [] => [[]]
  | _ => if ms.length ≤ 4 then [ms] else [ms.take 4, ms.drop 4]

/-- The deliveries of one line (R94, R95). -/
def planLine (s : State) (stations : List StationNo) (n : LineNo) : List Planned :=
  match s.lines[n].active.type with
  | .pointToPoint => [⟨n, []⟩]
  | .party =>
    let here := stations.filter (fun k => stationLine s.router.active[k] == n)
    (callSets (here.filterMap (memberOf s.router.active))).map (fun c => ⟨n, c⟩)

/-- The delivery plan of a message that is not directed, line by line in line order (R94). -/
def planStations (s : State) (stations : List StationNo) : List Planned :=
  (dropDuplicates (stations.map (fun k => stationLine s.router.active[k]))).flatMap (planLine s stations)

/-- The delivery plan of a message (R93, R94). -/
def deliveryPlan (s : State) (m : MessageRecord) : List Planned :=
  if m.directed then (directedLines m.dests).map (fun n => ⟨n, []⟩)
  else planStations s (routableStations s.router.active m.dests)

/-- The unroutable count of a message; a directed message has none (R92, R93). -/
def messageUnroutable (s : State) (m : MessageRecord) : Nat :=
  if m.directed then 0 else unroutableCount s.router.active m.dests

/-! ## The routing event (R96 to R99) -/

/-- The numbers of the FREE delivery entries, ascending (R102). -/
def freeNumbers (s : State) : List DeliveryNo := (List.finRange 256).filter (fun d => s.du.entries[d].state == .free)

/-- The entry of a planned delivery (R97). DESIGN CHOICE (log 45): its retry time is 0, for which no rule gives a value
before the entry is first set aside. -/
def plannedEntry (s : State) (t : TransitNo) (cls : Nat) (p : Planned) : Delivery :=
  { state := .queued, transit := t, line := p.line, cls := cls, queuedTime := s.office.clock, attempts := 0,
    repeatFlag := false, retryTime := 0, cancelPending := false, callSet := p.callSet }

/-- The planned deliveries take the lowest-numbered FREE entries in ascending order, and are then enqueued in plan order
(R97, R102). -/
def makeDeliveries (t : TransitNo) (cls : Nat) (plan : List Planned) (s : State) : State :=
  let taken := (freeNumbers s).zip plan
  taken.foldl (fun s x => enqueue x.1 s) (taken.foldl (fun u x => updEntry x.1 (fun _ => plannedEntry s t cls x.2) u) s)

/-- A held message is given to a hand-over walk (R99). -/
def holdMessage (m : MessageRecord) (reason : Nat) (s : State) : State :=
  askWalk { kind := .handOver, first := m.first, count := m.blockCount, origin := m.origin, reason := reason,
            transit := none } s

/-- R97, R98: the transit entry becomes LIVE, the deliveries are made in plan order, the head rewrite is decided and
MESSAGE ROUTED is offered. -/
def makeRouted (m : MessageRecord) (plan : List Planned) (t : TransitNo) (s : State) : State :=
  let s1 := updTransit t (fun _ =>
    { state := .live, first := m.first, blockCount := m.blockCount, origin := m.origin,
      autoRelease := m.autoRelease, outstanding := plan.length }) s
  let s2 := makeDeliveries t m.cls plan s1
  let s3 := changeCount t plan.length [] s2
  offerReport (record s .messageRouted m.origin (blockNumber m.first)
    (detail2 plan.length (messageUnroutable s m))) s3

/-- The routing event of a message: held with reason 3 or 4, or routed (R96). -/
def routeMessage (m : MessageRecord) (s : State) : State :=
  let plan := deliveryPlan s m
  if plan = [] then holdMessage m 3 s
  else
    match lowestFreeTransit s with
    | none => holdMessage m 4 s
    | some t => if freeDeliveries s < plan.length then holdMessage m 4 s else makeRouted m plan t s

end Sys2Proof.Machine
end

