-- ==== Sys2Proof/Machine/Receive.lean ====
section
/-! DEFINITION. The receivers' shared operations: storing bytes and close writes (R67, R76), the hand-off (R77), giving
and returning blocks (R25, R26, R67), takes and the header parse (R64 to R75), the idle close (R78), abandonment and
entry to OFF (R79 to R81). -/

namespace Sys2Proof.Machine

/-! ## Requests of a receiver (R67, R76) -/

/-- Line n's receiver is on the starved list (R28). -/
def isStarved (s : State) (n : LineNo) : Bool := s.pool.starved.contains n

/-- The message record of a closed message (R77, R90). -/
def recordOfAssembly (n : LineNo) (a : Assembly) : MessageRecord :=
  { first := a.first.getD 0, blockCount := a.blockCount, cls := a.cls, origin := n.val,
    originStation := (a.origin.getD 0).setWidth 16, serial := a.serial,
    flags := ⟨a.complete, a.mutilated, a.truncated, a.headerFault, a.incomplete⟩, directed := false,
    dests := a.dests.map (fun d => d.setWidth 16), autoRelease := a.autoRelease }

/-- The hand-over request of a closed message (R77). -/
def handOverOfAssembly (n : LineNo) (a : Assembly) (reason : Nat) : WalkRequest :=
  { kind := .handOver, first := a.first.getD 0, count := a.blockCount, origin := n.val, reason := reason,
    transit := none }

/-- The hand-off: the message goes to the Router or to a hand-over walk, and the receiver enters HUNTING (R77). DESIGN
CHOICE (log 38): the routing, by the line types as they stand, comes before the settings transfer that the entry to HUNTING
may bring about at the same event (R94, R129). -/
def handOff (n : LineNo) (s : State) : State :=
  let a := s.lines[n].rx.asm
  let s1 :=
    if a.incomplete then askWalk (handOverOfAssembly n a 2) s
    else if a.headerFault then askWalk (handOverOfAssembly n a 1) s
    else routeMessage (recordOfAssembly n a) s
  checkIdlePoint n (updRx n (fun r => { r with state := .hunting, asm := Assembly.reset, closeNext := 0 }) s1)

/-- The receiver's request is placed; with head word 15 the hand-off is made (R77). -/
def rxPlaced (n : LineNo) (p : Purpose) (s : State) : State := if p = .rxClose true then handOff n s else s

/-- The receiver offers a request: placed at once, or kept while the receiver waits (R9). -/
def rxOffer (n : LineNo) (r : Req) (s : State) : State :=
  if admits s then rxPlaced n r.purpose (place r s)
  else waitFor (.receiver n) (updRx n (fun x => { x with unplaced := some r }) s)

/-- A block is given to the receiver: it becomes the current block, and the first one the first block; a later one
is linked into the chain by a link write (R67). -/
def assignBlock (n : LineNo) (b : Nat) (s : State) : State :=
  let a := s.lines[n].rx.asm
  let s1 := updAsm n (fun a => { a with current := some b, blockCount := a.blockCount + 1,
                                        first := some (a.first.getD b) }) s
  match a.current with
  | none => s1
  | some p => rxOffer n (wordReq (blockWord s p 0) (blockNumber b) (.receiver n) .rxLink) s1

/-- One byte is offered as a byte write at the text position equal to the stored length (R67). -/
def storeByte (n : LineNo) (b : Byte) (s : State) : State :=
  let a := s.lines[n].rx.asm
  rxOffer n
    (byteReq (blockWord s (a.current.getD 0) (textWord a.storedLength)) (a.storedLength % 2 == 1) b (.receiver n)
      .rxByte)
    (updAsm n (fun a => { a with storedLength := a.storedLength + 1 }) s)

/-- The declared class of a message whose header has ended: 2 when no precedence was recognised (R71, Table 4-5,
log 36). -/
def endedClass (a : Assembly) : Nat := if a.stage = .precedence then 2 else a.cls

/-- Head word `w` of a closed message (R76, Tables 4-5 and 12-5). -/
def closeHeadWord (n : LineNo) (a : Assembly) (w : Nat) : Word :=
  match w with
  | 1 => BitVec.ofNat 16 a.storedLength
  | 2 => headWord2 a.blockCount 0
  | 3 => headWord3 (endedClass a) n.val a.complete a.mutilated a.truncated a.headerFault a.incomplete a.autoRelease false
  | 4 => (a.origin.getD 0).setWidth 16
  | 5 => a.serial
  | 6 => headWord6 a.dests.length 0
  | 15 => time16 a.received
  | w => if 7 ≤ w ∧ w ≤ 14 then (a.dests.getD (w - 7) 0).setWidth 16 else 0

/-- The close write of number `k`: NONE into the last block's link word, then head words 1 to 15 (R76). -/
def closeWrite (s : State) (n : LineNo) (k : Nat) : Req :=
  let a := s.lines[n].rx.asm
  if k = 0 then wordReq (blockWord s (a.current.getD 0) 0) Config.none16 (.receiver n) (.rxClose false)
  else wordReq (blockWord s (a.first.getD 0) k) (closeHeadWord n a k) (.receiver n) (.rxClose (k == 15))

/-- The receiver requests a block; if it is given one, the block joins its chain, else it is starved (R67, R68). -/
def askBlock (n : LineNo) (s : State) : State :=
  match requestBlock n s with
  | (some k, t) => assignBlock n k t
  | (none, t) => t

/-- The block that the next text position lies in is requested when the chain does not yet have it (R63, R67). -/
def ensureBlock (n : LineNo) (s : State) : State := if needsBlock s.lines[n].rx.asm then askBlock n s else s

/-- The next thing a receiver does of its own accord: a byte awaiting, for which it may need a block, or in CLOSING
the next close write. None when it has an unplaced request, is starved, or has nothing to do (R67, R68, R76). -/
def rxWork (n : LineNo) (s : State) : Option State :=
  let r := s.lines[n].rx
  if r.unplaced.isSome || isStarved s n then none
  else
    match r.asm.awaiting with
    | b :: rest =>
      if needsBlock r.asm then some (askBlock n s)
      else some (storeByte n b (updAsm n (fun a => { a with awaiting := rest }) s))
    | [] =>
      if r.state = .closing ∧ r.closeNext ≤ 15 then
        some (rxOffer n (closeWrite s n r.closeNext) (updRx n (fun r => { r with closeNext := r.closeNext + 1 }) s))
      else none

/-- The receiver goes on with its work until it waits or has nothing to do. At most four bytes awaiting, two blocks
and sixteen close writes can follow one another, so 32 rounds are never used up. -/
def rxContinue : Nat → LineNo → State → State
  | 0, _, s => s
  | k + 1, n, s =>
    match rxWork n s with
    | none => s
    | some t => rxContinue k n t

/-- The rounds of `rxContinue`. -/
def rxRounds : Nat := 32

/-- A starved receiver is given a block and continues (R26, R68). -/
def giveBlock (n : LineNo) (b : Nat) (s : State) : State := rxContinue rxRounds n (assignBlock n b s)

/-- R26: a returned block goes OWNED to the receiver at the head of the starved list, or becomes FREE at the tail of
the free list. -/
def returnBlock (b : Nat) (s : State) : State :=
  match s.pool.starved with
  | [] => joinFree b s
  | n :: rest => giveBlock n b (setBlock b .owned (updPool (fun p => { p with starved := rest }) s))

/-! ## Takes (R63 to R75) -/

/-- A code joins the pattern window, which holds at most four (R65). -/
def windowPush (w : List Code) (c : Code) : List Code :=
  let v := w ++ [c]
  if 4 < v.length then v.tail else v

/-- The gap step on the receiver itself: window cleared, mark cleared, and in a message mutilated set with a LOST
marker awaiting unless under truncation (R64). -/
def gapStep (r : Receiver) : Receiver :=
  let r1 := { r with window := [], fifo := r.fifo.modify 0 (fun e => { e with gapBefore := false }) }
  if r.state = .header ∨ r.state = .text then
    { r1 with asm := { r1.asm with
        mutilated := true
        awaiting := if truncating r then r1.asm.awaiting else [Config.lost] } }
  else r1

/-- The head entry leaves the FIFO: the noise indication and the close point follow (R63, R78, R84). -/
def popEntry (e : FifoEntry) (r : Receiver) : Receiver :=
  { r with fifo := r.fifo.tail, noise := e.noise, closePoint := r.closePoint - 1 }

/-- R66: the acceptance of an SOM. -/
def acceptSom (n : LineNo) (s : State) : State :=
  let s1 := updOffice (fun o => { o with serial := o.serial + 1 }) s
  rxContinue rxRounds n (updRx n (fun r => { r with
    state := .header, window := [], idleTimer := some 0, closeNext := 0,
    asm := { Assembly.reset with
      serial := s.office.serial, received := s.office.clock,
      awaiting := s.office.held.som.map (fun c => c.setWidth 8) } }) s1)

/-- R69, R70: a character that is neither LF nor passed over is a token. -/
def parseToken (h : HeldSetup) (c : Code) (a : Assembly) : Assembly :=
  match a.stage with
  | .precedence =>
    match h.precedence.findIdx? (fun p => p == c) with
    | some k => { a with cls := k, stage := .stations }
    | none => { a with cls := 2, headerFault := true, stage := .stations }
  | .stations =>
    match a.heldToken with
    | none => { a with heldToken := some c }
    | some t =>
      let pair : BitVec 10 := t ++ c
      match a.origin with
      | none => { a with heldToken := none, origin := some pair }
      | some _ =>
        if a.dests.length < 8 then { a with heldToken := none, dests := a.dests ++ [pair] }
        else { a with heldToken := none, headerFault := true }
  | .done => a

/-- R71: the checks made at an LF that ends the header. -/
def endHeader (a : Assembly) : Assembly :=
  { a with
    cls := endedClass a
    headerFault := a.headerFault || a.stage == .precedence || a.heldToken.isSome || a.dests.isEmpty
    stage := .done }

/-- R69 to R72: a character taken in HEADER, after it is stored. -/
def headerCharacter (h : HeldSetup) (c : Code) (r : Receiver) : Receiver :=
  let a := { r.asm with headerCount := r.asm.headerCount + 1 }
  if c = h.lf then { r with state := .text, asm := endHeader a }
  else
    let b := if c = h.ltrs ∨ c = h.figs ∨ c = h.space ∨ c = h.cr then a else parseToken h c a
    if Config.headerLimit ≤ b.headerCount then
      { r with state := .text, asm := { b with cls := endedClass b, headerFault := true, stage := .done } }
    else { r with asm := b }

/-- R75: the close by EOM; `underTruncation` is whether the take was. -/
def closeByEom (h : HeldSetup) (underTruncation : Bool) (r : Receiver) : Receiver :=
  { r with
    state := .closing, window := [], idleTimer := none, idleClose := false, closeNext := 0,
    asm := { r.asm with
      complete := true, autoRelease := true,
      cls := if r.state = .header then endedClass r.asm else r.asm.cls,
      headerFault := r.asm.headerFault || r.state == .header,
      stage := if r.state = .header then .done else r.asm.stage,
      awaiting := if underTruncation then h.eom.map (fun c => c.setWidth 8) else r.asm.awaiting } }

/-- A character taken in HEADER or TEXT has been stored or discarded: it is parsed, joins the window, and closes the
message if the window equals the EOM pattern (R69, R73 to R75). -/
def afterStore (n : LineNo) (c : Code) (underTruncation : Bool) (s : State) : State :=
  let h := s.office.held
  let s1 := updRx n (fun r =>
    let p := if r.state = .header then headerCharacter h c r else r
    let w := windowPush p.window c
    if w = h.eom then closeByEom h underTruncation p else { p with window := w }) s
  rxContinue rxRounds n s1

/-- A take in HUNTING: the code joins the window, and the SOM pattern is accepted (R65, R66). -/
def takeHunting (n : LineNo) (e : FifoEntry) (s : State) : State :=
  let s1 := updRx n (fun r => { popEntry e r with window := windowPush r.window e.code }) s
  if s1.lines[n].rx.window = s.office.held.som then acceptSom n s1 else s1

/-- A take in HEADER or TEXT of a character that is stored or, under truncation, discarded. The block it needs is
requested first; the character stays in the FIFO while the receiver is starved or its link write waits (R63, R67,
R74). -/
def takeMessage (n : LineNo) (e : FifoEntry) (s : State) : State :=
  let r := s.lines[n].rx
  if truncating r then
    afterStore n e.code true (updRx n (fun r => { popEntry e r with
      asm := { r.asm with truncated := true, mutilated := true } }) s)
  else
    let s1 := ensureBlock n s
    if mayTake (isStarved s1 n) s1.lines[n].rx then
      afterStore n e.code false (storeByte n (e.code.setWidth 8) (updRx n (popEntry e) s1))
    else s1

/-- One take: the gap step first, then the character, if the receiver may still take it (R63, R64). -/
def takeEntry (n : LineNo) (s : State) : State :=
  match s.lines[n].rx.fifo with
  | [] => s
  | e :: _ =>
    let s1 := if e.gapBefore then rxContinue rxRounds n (updRx n gapStep s) else s
    if mayTake (isStarved s1 n) s1.lines[n].rx then
      if s1.lines[n].rx.state = .hunting then takeHunting n e s1 else takeMessage n e s1
    else s1

/-! ## Idle close (R78) -/

/-- The idle close: the pending gap is dealt with, the incomplete flag set, and the close writes follow. -/
def idleCloseMessage (n : LineNo) (s : State) : State :=
  rxContinue rxRounds n (updRx n (fun r => { r with
    state := .closing, idleClose := false, window := [], pendingGap := false, closeNext := 0,
    asm := { r.asm with
      incomplete := true, mutilated := r.asm.mutilated || r.pendingGap,
      awaiting := if r.pendingGap && !truncating r then [Config.lost] else r.asm.awaiting } }) s)

/-! ## Abandonment (R79 to R81) -/

/-- Abandon requests whose completions have all come are given to the walker, in order (R81). -/
def splitGiven : List Abandonment → List Abandonment × List Abandonment
  | [] => ([], [])
  | a :: rest =>
    if a.remaining = 0 then let (g, k) := splitGiven rest; (a :: g, k) else ([], a :: rest)

/-- The abandon walk request of a listed chain (R81). -/
def abandonWalk (n : LineNo) (a : Abandonment) : WalkRequest :=
  { kind := .abandon, first := a.first, count := a.count, origin := n.val, reason := 0, transit := none }

/-- The abandon list gives what it can (R81). -/
def giveAbandoned (n : LineNo) (s : State) : State :=
  let (given, kept) := splitGiven s.lines[n].rx.abandon
  given.foldl (fun s a => askWalk (abandonWalk n a) s) (updRx n (fun r => { r with abandon := kept }) s)

/-- A request of receiver n has completed (R81). -/
def rxCompleted (n : LineNo) (s : State) : State :=
  giveAbandoned n (updRx n (fun r =>
    { r with abandon := r.abandon.map (fun a => { a with remaining := a.remaining - 1 }) }) s)

/-- The receiver's unplaced request is the link write into its chain's previous block, so its last block is not yet
linked (R81). -/
def hasUnlinked (r : Receiver) : Bool := r.unplaced.any (fun q => q.purpose == .rxLink)

/-- The blocks of the chain that are linked (R81). -/
def linkedBlocks (r : Receiver) : Nat := if hasUnlinked r then r.asm.blockCount - 1 else r.asm.blockCount

/-- A request has been placed for the chain of the message: the write of its first byte is the first (R67, R81). -/
def chainPlaced (r : Receiver) : Bool := decide (1 < r.asm.storedLength) || r.unplaced.isNone

/-- How many of the receiver's placed requests must complete before its chain may be walked; none where none was placed
for the chain (R81, log 37). -/
def chainOutstanding (n : LineNo) (s : State) : Nat :=
  if chainPlaced s.lines[n].rx then placedCount (.receiver n) s else 0

/-- Hand over the chain of an abandoned message (R81), the receiver having left the starved list (R79, R80). -/
def abandonChain (n : LineNo) (s : State) : State :=
  let r := s.lines[n].rx
  let s1 := leaveWaiting (.receiver n) (leaveStarved n (updRx n (fun r => { r with unplaced := none }) s))
  let s2 := if hasUnlinked r then returnBlock (r.asm.current.getD 0) s1 else s1
  if 0 < linkedBlocks r then
    giveAbandoned n (updRx n (fun x => { x with
      abandon := x.abandon ++ [⟨r.asm.first.getD 0, linkedBlocks r, chainOutstanding n s⟩] }) s2)
  else offerReport (record s .messageAbandoned n.val Config.none16 0) s2

/-- What every abandonment and every entry to OFF clears (R79, R80). -/
def clearReceiver (st : RxState) (r : Receiver) : Receiver :=
  { r with state := st, fifo := [], pendingGap := false, window := [], asm := Assembly.reset, idleClose := false,
           closePoint := 0, idleTimer := none, closeNext := 0 }

/-- A message is in progress or closed and not handed off: HEADER, TEXT or CLOSING. -/
def hasMessage (r : Receiver) : Bool := r.state == .header || r.state == .text || r.state == .closing

/-- A break abandons a message in HEADER or TEXT with no idle close pending (R79). -/
def breakReceiver (n : LineNo) (s : State) : State :=
  let r := s.lines[n].rx
  if (r.state = .header ∨ r.state = .text) ∧ ¬ r.idleClose then
    checkIdlePoint n (updRx n (clearReceiver .hunting) (abandonChain n s))
  else s

/-- A LINE RESET or a DISABLE taking effect puts the receiver OFF (R80). -/
def receiverOff (n : LineNo) (s : State) : State :=
  let s1 := if hasMessage s.lines[n].rx then abandonChain n s else s
  updLine n (fun l => { l with rx := clearReceiver .off l.rx, sampler := Sampler.reset }) s1

end Sys2Proof.Machine
end

