-- ==== Sys2Proof/Machine/Line.lean ====
section
/-! DEFINITION. A whole line's operations: entry to OFF (R80, R126, R127), the line control and settings words (R123 to
R129), completion (R135), calling and answer-back (R151 to R156), the answer check (R152), and what the hold latch does
to a line (R166, R169). -/

namespace Sys2Proof.Machine

/-! ## Entry to OFF (R126, R127) -/

/-- The delivery in hand, if any, is given back as an interruption with a reason, or freed as a cancel (R110). -/
def giveBackHand (n : LineNo) (reason : Nat) (s : State) : State :=
  match s.lines[n].tx.hand with
  | some h => interruptEntry h.number reason s.lines[n].tx.textBegun s
  | none => s

/-- Step 3 of R126: the transmitter's OFF values; the divider stops at 0, the runs stand at 0, the timers, the break
conditions and the party-line state are discarded (R43, R51, R55, R139, R142, R159). Placed reads complete and are
discarded. -/
def transmitterOff (n : LineNo) (s : State) : State :=
  leaveWaiting (.transmitter n) (updLine n (fun l => { l with
    tx := { Transmitter.reset with stale := l.tx.stale + l.tx.live }
    divider := 0, spaceRun := 0, markRun := 0, recent := (true, true), inBreak := false, recovery := false }) s)

/-- Steps 2 and 3 of R126, and the same for a LINE RESET (R127): the delivery in hand is dropped, the receiver goes OFF,
then the transmitter. While that comes about the line is stopping, so an enqueue that the receiver's returned block
brings about selects nothing for it (R108). -/
def goOff (n : LineNo) (s : State) : State :=
  transmitterOff n (receiverOff n (updTx n (fun t => { t with stopping := true }) (dropHand n s)))

/-- The DISABLE takes effect (R126); the entry to OFF is an idle point (R129). -/
def disableTakesEffect (n : LineNo) (s : State) : State := checkIdlePoint n (goOff n (giveBackHand n 1 s))

/-- What a LINE RESET clears in any state (R127). -/
def clearLineCounts (l : LineUnit) : LineUnit :=
  { l with framing := 0, overrun := 0, faulted := false, rx := { l.rx with fifo := [], noise := false } }

/-- LINE RESET (R127). -/
def resetLine (n : LineNo) (s : State) : State :=
  let s1 := if enabled s.lines[n] then goOff n (giveBackHand n 2 (abandonSending n s)) else s
  checkIdlePoint n (updLine n clearLineCounts s1)

/-- DISABLE: at once when no frame and no break-in is in progress, else stopping is set (R123, R125). -/
def disableLine (n : LineNo) (s : State) : State :=
  let t := s.lines[n].tx
  if t.state = .off ∨ t.stopping then s
  else if frameOrBreakIn t then updTx n (fun t => { t with stopping := true }) s
  else disableTakesEffect n s

/-- ENABLE of a line that is OFF (R82, R124): PREAMBLE with a preamble owed, or HELD when the hold latch is set. -/
def enableLine (n : LineNo) (s : State) : State :=
  if s.lines[n].tx.state = .off then
    updLine n (fun l => { l with
      divider := 0, sampler := Sampler.reset, spaceRun := 0, markRun := 0, recent := (true, true),
      rx := { l.rx with state := .hunting, fifo := [], pendingGap := false, window := [], asm := Assembly.reset,
                        idleClose := false },
      tx := if s.office.holdLatch then { l.tx with state := .held, send := true }
            else { l.tx with state := .preamble, owed := some .preamble, send := true } }) s
  else s

/-- The line control word (R123). -/
def lineControl (n : LineNo) (v : Word) (s : State) : State :=
  if v = 1 then enableLine n s
  else if v = 2 then disableLine n s
  else if v = 3 then resetLine n s
  else s

/-- The line settings word: the shadow is replaced, and transferred at once at the idle point (R128). -/
def lineSettings (n : LineNo) (v : Word) (s : State) : State :=
  checkIdlePoint n (updLine n (fun l => { l with shadow := parseSettings v, settingsPending := true }) s)

/-! ## Completion (R135) and requests in an underrun pause (R134, R136) -/

/-- R135: the delivery is given back as DONE; then OFF when stopping, else IDLE or PAUSE. Break-in pending lapses
(R162). DESIGN CHOICE (log 46): a read still outstanding, on which R135 is silent, is withdrawn if it is unplaced, and is
discarded at its completion if it is placed. -/
def completeDelivery (n : LineNo) (h : Hand) (s : State) : State :=
  let s1 := updTx n (fun t => { t with distantBreak := false, breakInPending := false, send := true })
    (dropHand n (completeEntry h.number s))
  if s1.lines[n].tx.stopping then disableTakesEffect n s1 else enterIdle n s1

/-- In an underrun pause, the event that shows that nothing further is to be sent completes the delivery (R135). -/
def completeIfEnded (n : LineNo) (s : State) : State :=
  let t := s.lines[n].tx
  match t.hand with
  | some h => if inPause t && textEnded t then completeDelivery n h s else s
  | none => s

/-- All four requests in the order of R136, at an event with no frame in progress. -/
def examineRequests (n : LineNo) (s : State) : State :=
  if s.lines[n].tx.stopping then disableTakesEffect n s else (deferredRequest n s).getD s

/-! ## Calling and answer-back (R151 to R156) -/

/-- The end of the call set (R154): SENDING, with a split of the unanswered members (R155), or the failed try with a
break-in (R156). DESIGN CHOICE (log 48): the split's head rewrite is offered before the transmitter's two reads of
SENDING, and the report words after them. -/
def endCallSet (n : LineNo) (h : Hand) (s : State) : State :=
  let set := s.du.entries[h.number].callSet
  if set.all (fun m => m.answered) then enterSending n h s
  else if set.any (fun m => m.answered) then enterSending n h (splitUnanswered h.number s)
  else enterBreakIn n (dropHand n (setAsideEntry h.number s))

/-- The call position advances to the next member, or the call set has ended (R151, R153). -/
def nextMember (n : LineNo) (h : Hand) (pos : Nat) (s : State) : State :=
  match h.callSet[pos]? with
  | some m => enterCalling n (pos + 1) m s
  | none => endCallSet n h s

/-- The boundary of the second call code of the member at `pos` (R151): ANSWER WAIT, or the member is answered. -/
def endCall (n : LineNo) (h : Hand) (pos : Nat) (s : State) : State :=
  match h.callSet[pos - 1]? with
  | none => s
  | some m =>
    if m.confirm then
      updTx n (fun t => { t with state := .answerWait, answerCount := some 0, answerWindow := [], send := true }) s
    else nextMember n h pos (setAnswered h.number pos s)

/-- The answer window after a code: at most the last two (R152). -/
def answerPush (w : List Code) (c : Code) : List Code :=
  let v := w ++ [c]
  if 2 < v.length then v.tail else v

/-- The answer check at a character's completion in ANSWER WAIT (R152, R153). -/
def answerCheck (n : LineNo) (c : Code) (framing : Bool) (s : State) : State :=
  let t := s.lines[n].tx
  match t.state, t.hand, t.callPos with
  | .answerWait, some h, some pos =>
    if framing then updTx n (fun t => { t with answerWindow := [] }) s
    else if c = s.office.held.ltrs ∨ c = s.office.held.figs then s
    else
      let w := answerPush t.answerWindow c
      match h.callSet[pos - 1]? with
      | none => s
      | some m =>
        if w = [m.callCode.extractLsb' 5 5, m.callCode.extractLsb' 0 5] then
          nextMember n h pos (setAnswered h.number pos s)
        else updTx n (fun t => { t with answerWindow := w }) s
  | _, _, _ => s

/-! ## Received breaks (R138, R139) -/

/-- What a break does to the transmitter of a point-to-point line (R138, R139). -/
def breakTransmitter (n : LineNo) (s : State) : State :=
  let l := s.lines[n]
  if isParty l then s
  else if l.tx.state = .idle then enterPause n s
  else if l.tx.state = .sending then
    let s1 := updTx n (fun t => { t with distantBreak := true }) s
    if inPause l.tx then examineRequests n s1 else s1
  else s

/-! ## The hold latch and a line (R166, R169) -/

/-- The latching event on one line (R166, R167). -/
def latchLine (n : LineNo) (s : State) : State :=
  if enabled s.lines[n] then
    let s1 := dropHand n (giveBackHand n 6 (abandonSending n s))
    let s2 := updTx n (fun t => { t with breakInPending := false, owed := none }) s1
    if s2.lines[n].tx.stopping then disableTakesEffect n s2
    else updTx n (fun t => { t with state := .held, distantBreak := false, guardCount := none }) s2
  else s

/-- The clearing of the latch on one line: a HELD transmitter owes a preamble (R169). -/
def releaseLine (n : LineNo) (s : State) : State :=
  if s.lines[n].tx.state = .held then
    updTx n (fun t => { t with state := .preamble, owed := some .preamble, send := true }) s
  else s

/-- An operation made on every line; where it is made on each line alone the order does not matter. -/
def onAllLines (f : LineNo → State → State) (s : State) : State := (List.finRange 24).foldl (fun s n => f n s) s

/-- The latching event (R164, R166): HOLD LATCHED and the lines, while RUNNING; the order of the lines is a free value
(log 14). -/
def latchHold (s : State) : State :=
  let s1 := updOffice (fun o => { o with holdLatch := true }) s
  if running s then
    (Config.linesInOrder s.freeCount).foldl (fun s n => latchLine n s)
      { offerReport (record s .holdLatched Config.officeLine Config.none16 0) s1 with freeCount := s.freeCount + 1 }
  else s1

/-- RESUME at its arrival (R165, R169). -/
def resumeHold (s : State) : State :=
  if s.pins.hold then updOffice (fun o => { o with holdStill := true }) s
  else
    let s1 := updOffice (fun o => { o with holdStill := false, holdLatch := false }) s
    if s.office.holdLatch && running s then
      onAllLines releaseLine (offerReport (record s .holdResumed Config.officeLine Config.none16 0) s1)
    else s1

/-! ## The cancel word (R115, R116) -/

/-- CANCEL REFUSED with reason 1 (R115). -/
def refuseCancel (v : Word) (s : State) : State := offerReport (record s .cancelRefused Config.officeLine v 1) s

/-- R116: cancel pending is set on the ACTIVE entry; in an underrun pause, and on a party line whenever no frame is in
progress, it is acted on at once (R136, R147; log 18). -/
def setCancelPending (d : DeliveryNo) (s : State) : State :=
  let n := s.du.entries[d].line
  let s1 := updEntry d (fun e => { e with cancelPending := true }) s
  let t := s.lines[n].tx
  if inPause t || t.state == .answerWait || (isParty s.lines[n] && betweenFrames t) then examineRequests n s1 else s1

/-- The cancel word at its arrival (R115). -/
def cancelWord (v : Word) (s : State) : State :=
  if h : v.toNat < 256 then
    let d : DeliveryNo := ⟨v.toNat, h⟩
    match s.du.entries[d].state with
    | .free => refuseCancel v s
    | .queued => cancelEntry d s
    | .waiting => cancelEntry d s
    | .active => if s.du.entries[d].cancelPending then s else setCancelPending d s
  else refuseCancel v s

end Sys2Proof.Machine
end

