-- ==== Sys2Proof/Machine/Walker.lean ====
section
/-! DEFINITION. The Chain Walker: starting walks, counted walks (R34 to R37), posting walks (R38 to R41, R173 to R175),
the Post Unit's queue (R170 to R172), and `settle`, which ends every event. -/

namespace Sys2Proof.Machine

/-! ## The Post Unit (R170 to R172) -/

/-- The posting request of a first-block number (R172). -/
def postingRequest (v : Word) : WalkRequest :=
  { kind := .posting, first := v.toNat, count := 0, origin := Config.officeLine, reason := 0, transit := none }

/-- A POST REFUSED report (R40, R171). -/
def postRefused (v : Word) (reason : Nat) (s : State) : State :=
  offerReport (record s .postRefused Config.officeLine v (BitVec.ofNat 16 reason)) s

/-- The post word at its arrival (R171). -/
def postWord (v : Word) (s : State) : State :=
  if s.post.contains v then postRefused v 8 s
  else if Config.postPlaces ≤ s.post.length then postRefused v 7 s
  else
    let s1 := { s with post := s.post ++ [v] }
    if s.post = [] then askWalk (postingRequest v) s1 else s1

/-- The end of a posting walk at the Post Unit: the entry in walk leaves, and the next is given to the walker (R172). -/
def postEnded (s : State) : State :=
  let s1 := { s with post := s.post.tail }
  match s1.post with
  | v :: _ => askWalk (postingRequest v) s1
  | [] => s1

/-! ## Ends and failures of walks -/

/-- The walk in progress is over (R31). -/
def clearWalk : State → State := updWalker (fun w => { w with walk := none })

/-- Change the walk in progress. -/
def updWalk (f : Walk → Walk) : State → State := updWalker (fun w => { w with walk := w.walk.map f })

/-- The transit entry of an ended release or reason-0 walk becomes FREE (R178, R179). -/
def freeTransit (t : Option TransitNo) (s : State) : State :=
  match t with
  | some t => updTransit t (fun e => { e with state := .free }) s
  | none => s

/-- The end of a counted walk: its report, and the freeing of its transit entry (R35 to R37). -/
def endCounted (w : Walk) (s : State) : State :=
  let r := w.req
  let report := fun kind detail => record s kind r.origin (blockNumber r.first) (BitVec.ofNat 16 detail)
  let s1 := clearWalk s
  match r.kind with
  | .abandon => offerReport (report .messageAbandoned w.acted) s1
  | .handOver =>
    if r.reason = 0 then freeTransit r.transit (offerReport (report .messageReturned w.acted) s1)
    else offerReport (report .messageHeld r.reason) s1
  | _ => freeTransit r.transit (offerReport (report .messageReleased w.acted) s1)

/-- What a counted walk does to a block it acts on: a return, or the mark HELD (R35 to R37). -/
def actOn (w : Walk) (s : State) : State :=
  if w.req.kind = .handOver then setBlock w.block .held s else returnBlock w.block s

/-- The walk acts on the block it has reached. -/
def actCounted (w : Walk) (s : State) : Walk × State := ({ w with acted := w.acted + 1 }, actOn w s)

/-- The link read of a block (R34, R38). -/
def linkRead (s : State) (b : Nat) (p : Purpose) : Req := readReq (blockWord s b 0) .walker p

/-- A counted walk reaches block `w.block` (R34): a block not OWNED ends the walk; the last of the recorded count is
acted on at once; else its link is read. -/
def reachCounted (w : Walk) (s : State) : State :=
  if blockState s w.block ≠ some .owned then endCounted w s
  else if w.acted + 1 < w.req.count then
    pumpWalker (updWalker (fun k => { k with walk := some { w with todo := w.todo ++ [linkRead s w.block .walkLink] } }) s)
  else
    let (w1, s1) := actCounted w s
    endCounted w1 s1

/-- A posting walk fails: its marked blocks are HELD again, POST REFUSED is offered, and the Post Unit goes on (R40,
R172). -/
def failPosting (w : Walk) (reason : Nat) (s : State) : State :=
  let s1 := w.marked.foldl (fun s b => setBlock b .held s) s
  postEnded (clearWalk (postRefused (blockNumber w.req.first) reason s1))

/-- A posting walk reaches block `b`: the three checks of R38, then the mark and the link read. -/
def reachPosting (w : Walk) (b : Nat) (s : State) : State :=
  if s.office.held.poolBlocks ≤ b then failPosting w 2 s
  else if Config.chainBlocks ≤ w.marked.length then failPosting w 3 s
  else if blockState s b ≠ some .held then failPosting w 1 s
  else
    pumpWalker (updWalker (fun k => { k with walk := some { w with
      block := b, marked := w.marked ++ [b], todo := [linkRead s b .postLink] } }) (setBlock b .owned s))

/-- A new walk of a request. -/
def newWalk (r : WalkRequest) : Walk :=
  { req := r, block := r.first, acted := 0, marked := [], words := [], serial := 0, todo := [] }

/-- The held-reason byte write of a hand-over walk: the high byte of head word 2 (R37, R189). -/
def heldReasonReq (s : State) (r : WalkRequest) : Req :=
  byteReq (blockWord s r.first 2) true (BitVec.ofNat 8 (r.reason % 8)) .walker .handOverHead

/-- A hand-over walk begins with its head write; a chain of more blocks goes on to its first link read (R37). DESIGN
CHOICE (log 44): where the first block is not OWNED at its reach, the walk ends there (R34) with its report and with no
head write. -/
def startHandOver (r : WalkRequest) (s : State) : State :=
  let todo := if r.count ≤ 1 then [heldReasonReq s r] else [heldReasonReq s r, linkRead s r.first .walkLink]
  if blockState s r.first ≠ some .owned then endCounted (newWalk r) s
  else pumpWalker (updWalker (fun k => { k with walk := some { newWalk r with todo := todo } }) s)

/-- A walk begins (R31). -/
def startWalk (r : WalkRequest) (s : State) : State :=
  match r.kind with
  | .posting => reachPosting (newWalk r) r.first s
  | .handOver => startHandOver r s
  | _ => reachCounted (newWalk r) s

/-- R31: with no walk in progress the walker takes the request at the head of its queue, at once; walks that end in
the same event let it take the next. -/
def runWalker : Nat → State → State
  | 0, s => s
  | k + 1, s =>
    match s.walker.walk, s.walker.queue with
    | none, r :: rest => runWalker k (startWalk r (takeBefore r (updWalker (fun w => { w with queue := rest }) s)))
    | _, _ => s

/-- The rounds of `runWalker`: one for each request that waits, and 512 for those that the walks of this event ask for. A
walk that ends at once lets at most the 128 transit entries, the 24 receivers and the 4 posts ask, so the rounds are not
used up (R31, log 35). -/
def walkerRounds (s : State) : Nat := s.walker.queue.length + 512

/-! ## The completions of walks -/

/-- A counted walk's link read completes with `v`: the walk acts on the block, and ends or reaches the next (R34). -/
def linkReadDone (w : Walk) (v : Word) (s : State) : State :=
  let (w1, s1) := actCounted w s
  if s.office.held.poolBlocks ≤ v.toNat then endCounted w1 s1
  else
    let w2 := { w1 with block := v.toNat }
    reachCounted w2 (updWalker (fun k => { k with walk := some w2 }) s1)

/-- A hand-over walk's head write completes: a message of one block is marked HELD and the walk ends (R37). -/
def handOverHeadDone (w : Walk) (s : State) : State :=
  if w.req.count ≤ 1 then
    let (w1, s1) := actCounted w s
    endCounted w1 s1
  else s

/-- The head reads of a posting walk: words 1 to 14 of the first block (R39). -/
def postHeadReads (s : State) (b : Nat) : List Req :=
  (List.range 14).map (fun i => readReq (blockWord s b (i + 1)) .walker .postHeadRead)

/-- A posting walk's link read completes with `v`: NONE goes on to the head, another value is the next block (R38,
R39). -/
def postLinkDone (w : Walk) (v : Word) (s : State) : State :=
  if v = Config.none16 then
    pumpWalker (updWalker (fun k => { k with walk := some { w with todo := postHeadReads s w.req.first } }) s)
  else reachPosting w v.toNat s

/-- Head word `i` (1 to 14) as the posting walk read it. -/
def Walk.head (w : Walk) (i : Nat) : Word := w.words.getD (i - 1) 0

/-- The destination count of the posted head (Table 12-5). -/
def Walk.destCount (w : Walk) : Nat := field (w.head 6) 0 8

/-- The first destination-count entries of the posted head's list. -/
def Walk.dests (w : Walk) : List Word := (List.range w.destCount).map (fun i => w.head (7 + i))

/-- R173: the first check the posted head fails, or 0. -/
def headCheck (w : Walk) : Nat :=
  if 3 < field (w.head 3) 0 3 then 4
  else if w.destCount = 0 ∨ 8 < w.destCount then 5
  else if (w.head 3).getLsbD 14 ∧ w.dests.any (fun v => decide (23 < v.toNat)) then 6
  else 0

/-- R174: the writes of head words 2, 3, 5, 6 and 15. -/
def postHeadWrites (s : State) (w : Walk) (serial : BitVec 16) : List Req :=
  let b := w.req.first
  let wr := fun i v last => wordReq (blockWord s b i) v .walker (.postHeadWrite last)
  [wr 2 (headWord2 w.marked.length 0) false,
   wr 3 (headWord3 (field (w.head 3) 0 3) Config.officeLine false false false false false
     ((w.head 3).getLsbD 13) ((w.head 3).getLsbD 14)) false,
   wr 5 serial false,
   wr 6 (headWord6 w.destCount 0) false,
   wr 15 (time16 s.office.clock) true]

/-- A posting walk's head read completes; the last validates the head, which fails the walk or is accepted with a
serial and the posted time (R39, R173, R174). -/
def postHeadReadDone (w : Walk) (v : Word) (s : State) : State :=
  let w1 := { w with words := w.words ++ [v] }
  if w1.words.length < 14 then updWalker (fun k => { k with walk := k.walk.map (fun x => { x with words := w1.words }) }) s
  else if headCheck w1 ≠ 0 then failPosting w1 (headCheck w1) s
  else
    let serial := s.office.serial
    pumpWalker (updWalker (fun k => { k with walk := some { w1 with
        serial := serial, todo := postHeadWrites s w1 serial } })
      (updOffice (fun o => { o with serial := o.serial + 1 }) s))

/-- The message record of an accepted posted head (R175). -/
def postedRecord (w : Walk) : MessageRecord :=
  { first := w.req.first, blockCount := w.marked.length, cls := field (w.head 3) 0 3, origin := Config.officeLine,
    originStation := w.head 4, serial := w.serial, flags := MessageFlags.clear, directed := (w.head 3).getLsbD 14, dests := w.dests,
    autoRelease := (w.head 3).getLsbD 13 }

/-- R175: the write of head word 15 completes: the walk ends, the message is routed, and the post queue advances. -/
def postingDone (w : Walk) (s : State) : State := postEnded (routeMessage (postedRecord w) (clearWalk s))

/-! ## The end of every event -/

/-- R185: ATTN follows its conditions. -/
def updateAttn (s : State) : State := updReport (fun p => { p with attn := attnCondition s }) s

/-- What ends every event: the walker takes waiting walk requests (R31), the Report Unit takes the reports offered (R182), a
free bus takes waiting work (R10), and ATTN follows (R185). While reset is asserted only ATTN follows (R18). -/
def settle (s : State) : State :=
  if s.resetIn then updateAttn s else updateAttn (startCycle (takeOffers (runWalker (walkerRounds s) s)))

/-- The outcome of an event: what it does and the end of every event, or nothing where the event cannot arise in this
state (log 2). -/
def event (due : Bool) (f : State → State) (s : State) : Host.Outcome State Fault Refusal :=
  .next (if due then settle (f s) else s)

end Sys2Proof.Machine
end

