-- ==== Sys2Proof/Machine/Office.lean ====
section
/-! DEFINITION. Office Control: the start word, the setup reads and their validation, acceptance and the entry to
RUNNING (R12 to R16, R33). -/

namespace Sys2Proof.Machine

/-- Office Control's next setup read, in ascending order of offset (R14). -/
def nextSetupRead (s : State) : Option Req :=
  if s.office.state = .setupRead ∧ s.office.setupNext < 14 then
    some (readReq (pageAddr s s.office.setupNext) .office .setupRead)
  else none

/-- A setup read is placed. -/
def setupReadPlaced : State → State := updOffice (fun o => { o with setupNext := o.setupNext + 1 })

/-- Office Control offers what it can (R9, R14). -/
def pumpOffice (s : State) : State := pump .office nextSetupRead setupReadPlaced pumpFuel s

/-- The start word at its arrival (R13); its value is ignored. -/
def startWord (s : State) : State :=
  match s.office.state with
  | .dormant =>
    pumpOffice (updOffice (fun o => { o with state := .setupRead, refusal := 0, setupNext := 0, setupWords := [] }) s)
  | .setupRead => s
  | .poolBuild => s
  | .running => updOffice (fun o => { o with setupLocked := true }) s

/-- The link write of block `b` in the pool initialisation walk of `count` blocks: the next block's number, or NONE
for the last (R22, R33). -/
def poolLinkReq (s : State) (count b : Nat) : Req :=
  wordReq (blockWord s b 0) (if b + 1 < count then blockNumber (b + 1) else Config.none16) .walker
    (.poolLink (b + 1 == count))

/-- The pool initialisation walk (R33). -/
def initWalk (s : State) (count : Nat) : Walk :=
  { req := { kind := .init, first := 0, count := count, origin := Config.officeLine, reason := 0, transit := none }
    block := 0, acted := 0, marked := [], words := [], serial := 0
    todo := (List.range count).map (poolLinkReq s count) }

/-- R16: the held values, the pool region, every block FREE in ascending order, and the initialisation walk. -/
def acceptSetup (h : HeldSetup) (s : State) : State :=
  let s1 := updOffice (fun o => { o with state := .poolBuild, held := h, refusal := 0 }) s
  let s2 := updPool (fun _ => { map := List.replicate h.poolBlocks .free, free := List.range h.poolBlocks,
                                starved := [] }) s1
  pumpWalker (updWalker (fun w => { w with walk := some (initWalk s2 h.poolBlocks) }) s2)

/-- R15: the setup is refused with the number of the failing check. -/
def refuseSetup (reason : Nat) : State → State := updOffice (fun o => { o with state := .dormant, refusal := reason })

/-- The validation event (R15, R16). -/
def validateSetup (s : State) : State :=
  let h := parseSetup s.office.setupWords
  match setupRefusal (pageBase s).toNat h with
  | 0 => acceptSetup h s
  | reason => refuseSetup reason s

/-- A setup read completes with `v` (R14); the fourteenth is the validation event. -/
def setupWordDone (v : Word) (s : State) : State :=
  if s.office.state = .setupRead then
    let s1 := updOffice (fun o => { o with setupWords := o.setupWords ++ [v] }) s
    if s1.office.setupWords.length < 14 then s1 else validateSetup s1
  else s

/-- The last link write of the pool build completes: the office enters RUNNING (R16, R33, R57, R60). -/
def enterRunning (s : State) : State :=
  if s.office.state = .poolBuild then
    updOffice (fun o => { o with state := .running, setupLock := true, clock := 0, divider := 0, serial := 0 })
      (clearWalk s)
  else s

end Sys2Proof.Machine
end

