-- ==== Sys2Proof/Machine/Path.lean ====
section
/-! DEFINITION. The Path Unit: what a processor access does at its arrival (R1 to R7, R27 to R30), the snooped words
and their owners (Tables 1-2 and 1-3), the completions of store cycles (R2, R11), and the reset input (R18, R19). -/

namespace Sys2Proof.Machine

/-! ## The snooped words (R4, R5, Table 1-2) -/

/-- The cause of an ignored return, or none for a return that is taken (R27, R30). -/
def returnCause : Option BlockState → Option Nat
  | some .held => none
  | some .free => some 3
  | some .owned => some 4
  | none => some 5

/-- The return word at its arrival (R27). -/
def returnWord (v : Word) (s : State) : State :=
  match returnCause (blockState s v.toNat) with
  | none => returnBlock v.toNat s
  | some cause => guardViolation cause v 0 s

/-- The report read index at its arrival (R184). -/
def readIndex (v : Word) (s : State) : State :=
  if (s.report.write - v).toNat + (s.report.fill - s.report.write).toNat ≤ ringSize s then
    updReport (fun p => { p with read := v, overflow := false, badRead := false, tally := 0 }) s
  else updReport (fun p => { p with badRead := true }) s

/-- Clock set high at its arrival (R58). -/
def setHigh (v : Word) : State → State := updOffice (fun o => { o with captured := some v })

/-- Clock set low at its arrival; an advance of the same cycle that is not yet taken is then void (R59, log 42). -/
def setLow (v : Word) (s : State) : State :=
  setClock (s.office.captured.getD 0 ++ v) (updOffice (fun o =>
    { o with captured := none
             advanceVoid := o.advanceVoid || decide (Config.cyclesPerSecond ≤ o.divider) }) s)

/-- A write to word `w` of shadow entry `k` (R87). -/
def writeShadow (k : StationNo) (w : Nat) (v : Word) (s : State) : State :=
  { s with router := { s.router with shadow := s.router.shadow.set k.val (shadowWrite s.router.shadow[k] w v) k.isLt } }

/-- The snooped words that are taken only while RUNNING (Table 1-2, R5). -/
def snoopRunning (off : Nat) (v : Word) (s : State) : State :=
  if off = 17 then returnWord v s
  else if off = 18 then postWord v s
  else if off = 19 then readIndex v s
  else if off = 20 ∧ v = 1 then commitStations s
  else if off = 21 then cancelWord v s
  else if off = 22 then setHigh v s
  else if off = 23 then setLow v s
  else if h : 128 ≤ off ∧ off < 152 then lineControl ⟨off - 128, by omega⟩ v s
  else s

/-- The command that a write with both byte enables at a page offset carries (R4, R5). -/
def snoop (off : Nat) (v : Word) (s : State) : State :=
  if off = 16 then startWord s
  else if off = 20 ∧ v = 2 then resumeHold s
  else if h : 160 ≤ off ∧ off < 184 then lineSettings ⟨off - 160, by omega⟩ v s
  else if h : 256 ≤ off ∧ off < 512 then writeShadow ⟨(off - 256) / 4, by omega⟩ ((off - 256) % 4) v s
  else if running s then snoopRunning off v s
  else s

/-! ## Arrivals (R1, R6, R7, R29) -/

/-- An access becomes the forwarded access of the Store Port (R1). -/
def forward (a : Access) : State → State := updPort (fun p => { p with fwd := some a })

/-- The access is held while RESET is asserted (R1, R18). -/
def holdAccess (a : Access) (s : State) : State := { s with path := { s.path with held := some a } }

/-- A word is passed to the processor (R2, R6). -/
def answer (v : Word) (s : State) : State := { s with path := { s.path with pdOut := v } }

/-- A pool write at its arrival: suppressed in POOL BUILD, and while RUNNING forwarded or suppressed with a GUARD
VIOLATION by the state of its block (R7, R29, R30). -/
def poolWrite (a : Access) (block : Nat) (s : State) : State :=
  if s.office.state = .poolBuild then s
  else
    match writeCause (blockState s block) with
    | none => forward a s
    | some cause => guardViolation cause (blockNumber block) (a.addr.setWidth 16) s

/-- The pool region exists from the acceptance of a setup to the next reset (R7). -/
def poolExists (s : State) : Bool := s.office.state == .poolBuild || s.office.state == .running

/-- A processor write that arrives out of reset (R1, R4, R7). -/
def arriveWrite (addr : Addr) (w : WriteData) (s : State) : State :=
  let a : Access := ⟨addr, some w⟩
  match pageOffset s addr, poolBlock s addr with
  | some off, _ => if w.be = .both then snoop off w.data (forward a s) else forward a s
  | none, some block => if poolExists s then poolWrite a block s else forward a s
  | none, none => forward a s

/-- A read of the claim word while RUNNING (R6, R24). -/
def claimWord (s : State) : State :=
  let c := claimBlock s
  answer c.1 c.2

/-- The read of a live offset is substituted: office status in every state, the others while RUNNING (R6). -/
def substituted (s : State) (off : Nat) : Option (State → State) :=
  if off = 34 then if running s then some claimWord else none
  else if off = 32 ∨ running s then (liveWord s off).map answer
  else none

/-- A processor read that arrives out of reset (R1, R6). -/
def arriveRead (addr : Addr) (s : State) : State :=
  match (pageOffset s addr).bind (substituted s) with
  | some f => f s
  | none => forward ⟨addr, none⟩ s

/-- A processor write at its arrival; during reset it is held (R1, R18). -/
def processorWrite (addr : Addr) (w : WriteData) (s : State) : State :=
  if s.resetIn then holdAccess ⟨addr, some w⟩ s else arriveWrite addr w s

/-- A processor read at its arrival; during reset it is held (R1, R18). -/
def processorRead (addr : Addr) (s : State) : State :=
  if s.resetIn then holdAccess ⟨addr, none⟩ s else arriveRead addr s

/-- A write event of the processor: it arrives only while no access is waited for (R1). -/
def writeEvent (addr : Addr) (w : WriteData) (s : State) : Host.Outcome State Fault Refusal :=
  event (!pwait s) (processorWrite addr w) s

/-- A read event of the processor: it arrives only while no access is waited for (R1). -/
def readEvent (addr : Addr) (s : State) : Host.Outcome State Fault Refusal :=
  event (!pwait s) (processorRead addr) s

/-! ## Completions of store cycles (R2, R11) -/

/-- SREADY has ended the cycle in progress. -/
def endCycle : State → State := updPort (fun p => { p with cycle := none })

/-- The store holds what a write put there. -/
def serveStore (addr : Addr) (w : Option WriteData) (s : State) : State := { s with store := s.store.serve addr w }

/-- The forwarded access is settled; a read passes the store's word to the processor (R2). -/
def settleAccess (a : Access) (s : State) : State :=
  let s1 := serveStore a.addr a.write (endCycle s)
  match a.write with
  | some _ => s1
  | none => answer (s.store.readWord a.addr) s1

/-- An internal request completes: the store is served, and a receiver counts it for its abandon list (R11, R81). -/
def finishRequest (r : Req) (s : State) : State :=
  let s1 := serveStore r.addr r.write (endCycle s)
  match r.issuer with
  | .receiver n => rxCompleted n s1
  | _ => s1

/-- The completion of an internal request whose purpose `p` admits; `f` is the issuer's part, which gets the request and
the word read (R11). -/
def completion (p : Purpose → Bool) (f : Req → Word → State → State) (s : State) :
    Host.Outcome State Fault Refusal :=
  match s.port.cycle with
  | some (.internal r) => event (p r.purpose) (fun s => f r (s.store.readWord r.addr) (finishRequest r s)) s
  | _ => .next s

/-- The same for the walk in progress. -/
def walkCompletion (p : Purpose → Bool) (f : Walk → Word → State → State) : State → Host.Outcome State Fault Refusal :=
  completion p (fun _ v s =>
    match s.walker.walk with
    | some w => f w v s
    | none => s)

/-- The same for a read of a transmitter: a discarded read is only counted off (R126, R137). -/
def transmitterCompletion (p : Purpose → Bool) (f : LineNo → Word → State → State) :
    State → Host.Outcome State Fault Refusal :=
  completion p (fun r v s =>
    match r.issuer with
    | .transmitter n =>
      if 0 < s.lines[n].tx.stale then updTx n (fun t => { t with stale := t.stale - 1 }) s
      else f n v (updTx n (fun t => { t with live := t.live - 1 }) s)
    | _ => s)

/-! ## The reset input (R18, R19) -/

/-- The address and the write of a store cycle. -/
def Cycle.access : Cycle → Access
  | .forwarded a => a
  | .internal r => ⟨r.addr, r.write⟩

/-- The word under a write that reset ends is old or new as the store decides: a free value (R18, log 10). -/
def endWrite (s : State) : State :=
  match s.port.cycle with
  | none => s
  | some c =>
    match c.access.write with
    | none => s
    | some w =>
      let t := { s with freeCount := s.freeCount + 1 }
      if Config.resetWriteLands s.freeCount then serveStore c.access.addr (some w) t else t

/-- The processor access that reset keeps waiting: held already, waiting for the store, or in the ended cycle (R18). -/
def heldAccess (s : State) : Option Access :=
  match s.path.held, s.port.fwd, s.port.cycle with
  | some a, _, _ => some a
  | none, some a, _ => some a
  | none, none, some (.forwarded a) => some a
  | none, none, _ => none

/-- A line at the assertion of reset: its divider stops at 0, and its offered and placed requests are gone (R18, R43,
R120). -/
def lineUnderReset (l : LineUnit) : LineUnit :=
  { l with divider := 0, rx := { l.rx with unplaced := none }, tx := { l.tx with out := [], live := 0, stale := 0 } }

/-- The assertion of RESET (R18): the cycle in progress ends, queue and waiting list are emptied, last-served is
INTERNAL, and the office leaves LOADING or RUNNING (R12). -/
def assertReset (s : State) : State :=
  let t := endWrite s
  { t with
    resetIn := true
    path := { t.path with held := heldAccess s }
    port := StorePort.reset
    office := { t.office with state := .dormant, setupLock := false, setupNext := 0, setupWords := [] }
    walker := ChainWalker.reset
    lines := t.lines.map lineUnderReset
    du := { t.du with rewrites := [] }
    report := { t.report with offers := [], records := [], wordNext := 0 } }

/-- The reset values of every block, with the straps sampled and the hold latch at the level of HOLD (R3, R19). What is
kept: the store, the commands and inputs still to come, the pins, and what the processor last read. -/
def resetValues (straps : BitVec 4) (hold : Bool) (s : State) : State :=
  { State.reset with
    pending := s.pending
    inputs := s.inputs
    pins := { s.pins with straps := straps, hold := hold }
    freeCount := s.freeCount
    store := s.store
    path := { straps := straps, held := none, pdOut := s.path.pdOut }
    office := OfficeControl.reset hold }

/-- The deassertion of RESET (R19): the held access is then taken as a new arrival (R18). -/
def deassertReset (straps : BitVec 4) (hold : Bool) (s : State) : State :=
  let t := resetValues straps hold s
  match s.path.held with
  | none => t
  | some a =>
    match a.write with
    | some w => arriveWrite a.addr w t
    | none => arriveRead a.addr t

end Sys2Proof.Machine
end

