-- ==== Sys2Proof/Machine/MemoryPath.lean ====
section
/-! DEFINITION. The commands of the memory path, the reset input and the office start (spec/01). Each meaning is named
after its command; `event` and its kin say when the event can arise and end it. -/

namespace Sys2Proof.Machine

/-! ## Request placement (R9) -/

/-- The issuer at the head of the waiting list places its request and goes on with its work (R9, R104, R183). -/
def placeFor (i : Issuer) (s : State) : State :=
  match i with
  | .receiver n =>
    match s.lines[n].rx.unplaced with
    | some r =>
      rxContinue rxRounds n (rxPlaced n r.purpose (place r (updRx n (fun x => { x with unplaced := none }) s)))
    | none => s
  | .transmitter n =>
    match s.lines[n].tx.out with
    | r :: rest => pumpTx n (place r (updTx n (fun t => { t with out := rest, live := t.live + 1 }) s))
    | [] => s
  | .walker =>
    match s.walker.offered with
    | some r => pumpWalker (walkRequestPlaced r (place r s))
    | none => s
  | .delivery =>
    match nextRewrite s with
    | some r => pumpDelivery (rewritePlaced (place r s))
    | none => s
  | .report =>
    match nextReportWord s with
    | some r => pumpReport (reportWordPlaced (place r s))
    | none => s
  | .office =>
    match nextSetupRead s with
    | some r => pumpOffice (setupReadPlaced (place r s))
    | none => s

/-- A place is free and an issuer waits (R9). -/
def placementDue (s : State) : Bool :=
  !s.resetIn && !s.port.waiting.isEmpty && decide (s.port.queue.length < Config.queuePlaces)

/-- The issuer at the head leaves the waiting list as its request joins the queue (R9). -/
def placeWaiting (s : State) : State :=
  match s.port.waiting with
  | [] => s
  | i :: rest => placeFor i (updPort (fun p => { p with waiting := rest }) s)

/-! ## The meanings -/

/-- RESET_ASSERTED (R18); a second assertion without a deassertion between is none. -/
def execResetAsserted (s : State) : Host.Outcome State Fault Refusal := event (!s.resetIn) assertReset s

/-- RESET_DEASSERTED (R19). -/
def execResetDeasserted (straps : BitVec 4) (hold : Bool) (s : State) : Host.Outcome State Fault Refusal :=
  event s.resetIn (deassertReset straps hold) s

/-- PROCESSOR_WRITE (R1). -/
def execProcessorWrite (addr : Addr) (data : Word) (be : ByteEnables) (s : State) : Host.Outcome State Fault Refusal :=
  writeEvent addr ⟨data, be⟩ s

/-- FORWARDED_ACCESS_COMPLETION (R2). -/
def execForwardedAccessCompletion (s : State) : Host.Outcome State Fault Refusal :=
  match s.port.cycle with
  | some (.forwarded a) => event true (settleAccess a) s
  | _ => .next s

/-- REQUEST_PLACEMENT (R9). -/
def execRequestPlacement (s : State) : Host.Outcome State Fault Refusal := event (placementDue s) placeWaiting s

/-- The writes whose completion has no row of its own. -/
def plainWrite : Purpose → Bool
  | .poolLink last => !last
  | .freeLink => true
  | .rxByte => true
  | .rxLink => true
  | .rxClose _ => true
  | .rewrite => true
  | .reportWord last => !last
  | .postHeadWrite last => !last
  | _ => false

/-- INTERNAL_WRITE_COMPLETION (R11): the store holds the new value; the issuer is told, which matters to a receiver with
an abandon list (R81). -/
def execInternalWriteCompletion (s : State) : Host.Outcome State Fault Refusal :=
  completion plainWrite (fun _ _ s => s) s

/-- START_WORD (R13). -/
def execStartWord (data : Word) (be : ByteEnables) (s : State) : Host.Outcome State Fault Refusal :=
  writeEvent (pageAddr s 16) ⟨data, be⟩ s

/-- SETUP_READ_COMPLETION (R14 to R16). -/
def execSetupReadCompletion (s : State) : Host.Outcome State Fault Refusal :=
  completion (· == .setupRead) (fun _ v s => setupWordDone v s) s

/-- POOL_BUILD_END (R16, R33). -/
def execPoolBuildEnd (s : State) : Host.Outcome State Fault Refusal :=
  completion (· == .poolLink true) (fun _ _ s => enterRunning s) s

end Sys2Proof.Machine
end

