-- ==== Sys2Proof/Machine/OfficeCommands.lean ====
section
/-! DEFINITION. The office's commands: the station table (spec/05), the cancel word (spec/06), the office clock
(spec/03), the hold latch (spec/09) and the reports (spec/11). -/

namespace Sys2Proof.Machine

/-- COMMIT_STATIONS (R88): office command 1. -/
def execCommitStations (be : ByteEnables) (s : State) : Host.Outcome State Fault Refusal :=
  writeEvent (pageAddr s 20) ⟨1, be⟩ s

/-- STATION_SHADOW_WRITE (R87). -/
def execStationShadowWrite (entry : StationNo) (word : Fin 4) (data : Word) (be : ByteEnables) (s : State) :
    Host.Outcome State Fault Refusal :=
  writeEvent (pageAddr s (256 + 4 * entry.val + word.val)) ⟨data, be⟩ s

/-- CANCEL_WORD (R115). -/
def execCancelWord (data : Word) (be : ByteEnables) (s : State) : Host.Outcome State Fault Refusal :=
  writeEvent (pageAddr s 21) ⟨data, be⟩ s

/-- The advance of the clock, or, after a set that was taken first at its cycle, nothing (R57, R59). -/
def advanceClock (s : State) : State :=
  if s.office.advanceVoid then updOffice (fun o => { o with advanceVoid := false }) s
  else setClock (s.office.clock + 1) s

/-- CLOCK_ADVANCE (R57, R112). -/
def execClockAdvance (s : State) : Host.Outcome State Fault Refusal :=
  event (!s.resetIn && running s) advanceClock s

/-- CLOCK_SET_HIGH (R58). -/
def execClockSetHigh (data : Word) (be : ByteEnables) (s : State) : Host.Outcome State Fault Refusal :=
  writeEvent (pageAddr s 22) ⟨data, be⟩ s

/-- CLOCK_SET_LOW (R59). -/
def execClockSetLow (data : Word) (be : ByteEnables) (s : State) : Host.Outcome State Fault Refusal :=
  writeEvent (pageAddr s 23) ⟨data, be⟩ s

/-- The HOLD input becomes asserted (R164): the latching event, when the latch is clear. -/
def assertHold (s : State) : State :=
  let s1 := { s with pins := { s.pins with hold := true } }
  if s.resetIn || s.office.holdLatch then s1 else latchHold s1

/-- HOLD_LATCHING (R164). -/
def execHoldLatching (s : State) : Host.Outcome State Fault Refusal := event true assertHold s

/-- The HOLD input takes a level; a rise is an assertion (R164). -/
def holdLevel (level : Bool) (s : State) : State :=
  if level then (if s.pins.hold then s else assertHold s) else { s with pins := { s.pins with hold := false } }

/-- RESUME (R165): office command 2, with the level of HOLD at its arrival. -/
def execResume (be : ByteEnables) (hold : Bool) (s : State) : Host.Outcome State Fault Refusal :=
  event (!pwait s) (fun s => processorWrite (pageAddr s 20) ⟨2, be⟩ (holdLevel hold s)) s

/-- REPORT_READ_INDEX (R184). -/
def execReportReadIndex (data : Word) (be : ByteEnables) (s : State) : Host.Outcome State Fault Refusal :=
  writeEvent (pageAddr s 19) ⟨data, be⟩ s

/-- REPORT_WORD_COMPLETION (R183): word 3 of a record is in store, and the write index rises. -/
def execReportWordCompletion (s : State) : Host.Outcome State Fault Refusal :=
  completion (· == .reportWord true) (fun _ _ s => updReport (fun p => { p with write := p.write + 1 }) s) s

end Sys2Proof.Machine
end

