-- ==== Sys2Proof/Machine/Receivers.lean ====
section
/-! DEFINITION. The commands of the samplers, the level timers and the receivers (spec/03, spec/04). An event command
sets the counts that the event implies (log 3), so it may be given without the reference cycles before it. -/

namespace Sys2Proof.Machine

/-- An event of line n: it can arise while the condition holds and reset is not asserted. -/
def lineEvent (n : LineNo) (due : LineUnit → Bool) (f : State → State) (s : State) : Host.Outcome State Fault Refusal :=
  event (!s.resetIn && due s.lines[n]) f s

/-! ## Samples -/

/-- A mark sample of line n: the runs (R51). -/
def markSample (run : Nat) (l : LineUnit) : LineUnit := { l with markRun := run, spaceRun := 0 }

/-- A space sample of line n: the runs (R51), and a running idle timeout counts anew (R78). -/
def spaceSample (run : Nat) (l : LineUnit) : LineUnit :=
  { l with spaceRun := run, markRun := 0, rx := { l.rx with idleTimer := l.rx.idleTimer.map (fun _ => 0) } }

/-- A start edge: this sample is sample 0, the indications are cleared (R46, R49), and a running guard count counts anew
(R145). -/
def startEdge (l : LineUnit) : LineUnit :=
  { spaceSample 1 l with
    sampler := { state := .inCharacter, sample := 0, code := 0, noise := false, framing := false }
    tx := { l.tx with guardCount := l.tx.guardCount.map (fun _ => 0) } }

/-- A false start (R47). -/
def falseStart (lastSpace : Bool) (l : LineUnit) : LineUnit :=
  if lastSpace then startEdge l else { l with sampler := { l.sampler with state := .waitStart } }

/-! ## Character completion (R48, R62, R143) -/

/-- The sampler as a character completes (R48, R49). -/
def completeSampler (code : Code) (noise framing lastMark : Bool) (l : LineUnit) : LineUnit :=
  { l with sampler := { state := if lastMark then .waitStart else .waitMark
                        sample := 53, code := code, noise := noise, framing := framing } }

/-- What becomes of a completed character: echo, lost to overrun, discarded for framing, or joined (R56, R62, R143). -/
def receiveCharacter (code : Code) (noise framing : Bool) (l : LineUnit) : LineUnit :=
  if echoes l then { l with rx := { l.rx with pendingGap := true } }
  else if Config.fifoPlaces ≤ l.rx.fifo.length then
    { l with overrun := min 255 (l.overrun + 1), rx := { l.rx with pendingGap := true } }
  else if framing then { l with framing := min 255 (l.framing + 1), rx := { l.rx with pendingGap := true } }
  else
    { l with rx := { l.rx with
        fifo := l.rx.fifo ++ [{ code := code, noise := noise, gapBefore := l.rx.pendingGap }], pendingGap := false } }

/-- A character completes: the receive FIFO, then the answer check (R152), then the idle point (R129). -/
def completeCharacter (n : LineNo) (code : Code) (noise framing lastMark : Bool) (s : State) : State :=
  checkIdlePoint n (answerCheck n code framing
    (updLine n (fun l => receiveCharacter code noise framing (completeSampler code noise framing lastMark l)) s))

/-! ## Level timers (R52 to R54, R138 to R140) -/

/-- The line as a break is detected: in break and in break recovery, on which only a point-to-point line acts (R52, R139;
log 16). -/
def beginBreak (l : LineUnit) : LineUnit :=
  { spaceSample 128 l with
    inBreak := true, recovery := true, sampler := { l.sampler with state := .waitMark } }

/-- A break is detected: the receiver's part, then the transmitter's (R79, R138, R139; log 16); the Report Unit takes their
reports in either order (log 49). -/
def detectBreak (n : LineNo) (s : State) : State :=
  checkIdlePoint n (breakTransmitter n (breakReceiver n (updLine n beginBreak s)))

/-- A break ends at the first mark sample (R52). -/
def endBreak (l : LineUnit) : LineUnit :=
  { markSample 1 l with inBreak := false, sampler := { l.sampler with state := .waitStart } }

/-- A loop open: the faulted flag and LINE FAULT, once (R53). -/
def openLoop (n : LineNo) (s : State) : State :=
  let s1 := updLine n (spaceSample 4096) s
  if s.lines[n].faulted then s1
  else offerReport (record s .lineFault n.val Config.none16 0) (updLine n (fun l => { l with faulted := true }) s1)

/-- The restore: the faulted flag clears with LINE RESTORED, and a point-to-point transmitter in IDLE has a selection
occasion (R54, R108, R140). -/
def restoreLoop (n : LineNo) (s : State) : State :=
  let s1 := offerReport (record s .lineRestored n.val Config.none16 0) (updLine n (fun l => { l with faulted := false }) s)
  if s1.lines[n].tx.state = .idle ∧ ¬ isParty s1.lines[n] then idleOccasion n s1 else s1

/-- The end of break recovery: PAUSE goes to IDLE (R139). -/
def endRecovery (n : LineNo) (s : State) : State :=
  let s1 := updLine n (fun l => { l with recovery := false }) s
  if s1.lines[n].tx.state = .pause then enterIdle n s1 else s1

/-- Steady mark: the restore, then the end of break recovery (R54, R139, R140; log 30). -/
def steadyMark (n : LineNo) (s : State) : State :=
  let s1 := updLine n (fun l =>
    { markSample 64 l with inBreak := false, sampler := { l.sampler with state := .waitStart } }) s
  let s2 := if s1.lines[n].faulted then restoreLoop n s1 else s1
  checkIdlePoint n (if s2.lines[n].recovery then endRecovery n s2 else s2)

/-! ## Idle timeout (R78) -/

/-- The idle timeout expires: the idle close indication and the close point (R78). -/
def expireIdle (r : Receiver) : Receiver :=
  { r with idleTimer := none, idleClose := true, closePoint := r.fifo.length }

/-- The idle timeout runs: in HEADER or TEXT, with no idle close indication set (R78). -/
def idleTimerRuns (r : Receiver) : Bool := (r.state == .header || r.state == .text) && r.idleTimer.isSome

/-! ## The meanings -/

/-- START_EDGE (R46): the mark sample it needs is implied where the sampler is still in WAIT MARK (log 3). -/
def execStartEdge (n : LineNo) (s : State) : Host.Outcome State Fault Refusal :=
  lineEvent n (fun l => enabled l && l.sampler.state != .inCharacter && !l.inBreak) (updLine n startEdge) s

/-- FALSE_START (R47). -/
def execFalseStart (n : LineNo) (lastSpace : Bool) (s : State) : Host.Outcome State Fault Refusal :=
  lineEvent n (fun l => enabled l && l.sampler.state == .inCharacter)
    (fun s => checkIdlePoint n (updLine n (falseStart lastSpace) s)) s

/-- CHARACTER_COMPLETION (R62). -/
def execCharacterCompletion (n : LineNo) (code : Code) (noise framing lastMark : Bool) (s : State) :
    Host.Outcome State Fault Refusal :=
  lineEvent n enabled (completeCharacter n code noise framing lastMark) s

/-- RECEIVER_TAKE (R63); an idle close that is due comes before any further take (R78). -/
def execReceiverTake (n : LineNo) (s : State) : Host.Outcome State Fault Refusal :=
  lineEvent n (fun l => mayTake (isStarved s n) l.rx && !mayIdleClose (isStarved s n) l.rx) (takeEntry n) s

/-- IDLE_TIMEOUT_EXPIRY (R78). -/
def execIdleTimeoutExpiry (n : LineNo) (s : State) : Host.Outcome State Fault Refusal :=
  lineEvent n (fun l => idleTimerRuns l.rx) (updRx n expireIdle) s

/-- IDLE_CLOSE (R78). -/
def execIdleClose (n : LineNo) (s : State) : Host.Outcome State Fault Refusal :=
  lineEvent n (fun l => mayIdleClose (isStarved s n) l.rx) (idleCloseMessage n) s

/-- BREAK_DETECTION (R52): a space run yields one break. -/
def execBreakDetection (n : LineNo) (s : State) : Host.Outcome State Fault Refusal :=
  lineEvent n (fun l => enabled l && !l.inBreak) (detectBreak n) s

/-- BREAK_END (R52). -/
def execBreakEnd (n : LineNo) (s : State) : Host.Outcome State Fault Refusal :=
  lineEvent n (fun l => enabled l && l.inBreak) (updLine n endBreak) s

/-- LOOP_OPEN (R53). -/
def execLoopOpen (n : LineNo) (s : State) : Host.Outcome State Fault Refusal :=
  lineEvent n enabled (openLoop n) s

/-- STEADY_MARK (R52, R54, R139). -/
def execSteadyMark (n : LineNo) (s : State) : Host.Outcome State Fault Refusal :=
  lineEvent n enabled (steadyMark n) s

end Sys2Proof.Machine
end

