-- ==== Sys2Proof/Machine/Transmitters.lean ====
section
/-! DEFINITION. The commands of line control and of the transmitters (spec/07, spec/08). -/

namespace Sys2Proof.Machine

/-! ## Line control (R123 to R129) -/

/-- ENABLE (R124). -/
def execEnable (n : LineNo) (be : ByteEnables) (s : State) : Host.Outcome State Fault Refusal :=
  writeEvent (pageAddr s (128 + n.val)) ⟨1, be⟩ s

/-- DISABLE (R125, R126). -/
def execDisable (n : LineNo) (be : ByteEnables) (s : State) : Host.Outcome State Fault Refusal :=
  writeEvent (pageAddr s (128 + n.val)) ⟨2, be⟩ s

/-- LINE_RESET (R127). -/
def execLineReset (n : LineNo) (be : ByteEnables) (s : State) : Host.Outcome State Fault Refusal :=
  writeEvent (pageAddr s (128 + n.val)) ⟨3, be⟩ s

/-- LINE_SETTINGS_WORD (R128, R129). -/
def execLineSettingsWord (n : LineNo) (data : Word) (be : ByteEnables) (s : State) : Host.Outcome State Fault Refusal :=
  writeEvent (pageAddr s (160 + n.val)) ⟨data, be⟩ s

/-! ## Sendings (R44, R45, R122, R136) -/

/-- A sending is ready to begin: one is owed, or a data character is ready (R122). -/
def hasNext (t : Transmitter) : Bool :=
  t.owed.isSome || ((t.state == .sending || t.state == .calling) &&
    (!t.opening.isEmpty || (t.state == .sending && textReady t)))

/-- The frame in progress has ended (R44). -/
def endSending (n : LineNo) : State → State := updTx n (fun t => { t with sending := none, send := true })

/-- A deferred request has been acted on at a boundary: its break-in begins at this tick (R137, R161). -/
def beginBreakIn (n : LineNo) (s : State) : State :=
  if s.lines[n].tx.state = .breakIn then beginNext n s else s

/-- In CALLING the next LTRS begins at this tick: the boundary of a call code, or the end of the break-in at which the
delivery was selected, each a point at which the transmitter is free (R121, R122, R151; log 43). -/
def beginCall (n : LineNo) (s : State) : State := if s.lines[n].tx.state = .calling then beginNext n s else s

/-- The boundary of the second call code of a member, with no request (R151): the next member's LTRS begins at this
tick. -/
def callBoundary (n : LineNo) (h : Hand) (s : State) : State :=
  beginCall n (match s.lines[n].tx.callPos with
    | some pos => endCall n h pos s
    | none => s)

/-- A character boundary (R135, R136): completion, stopping, a deferred request, the end of a call, or the next
character. DESIGN CHOICE (log 50): where the frame proves to be the last but the transmitter does not yet know it (only
characters to be passed over, or a link that ends the text, are still to come), R136 has a distant break, a cancel or a
break-in pending acted on at its boundary and R135, R137 and R138 have it lapse; it is acted on. -/
def boundary (n : LineNo) (s : State) : State :=
  let s1 := endSending n s
  let t := s1.lines[n].tx
  match t.hand with
  | none => if t.stopping then disableTakesEffect n s1 else s1
  | some h =>
    if t.state = .sending ∧ textEnded t then completeDelivery n h s1
    else if t.stopping then disableTakesEffect n s1
    else
      match deferredRequest n s1 with
      | some s2 => beginBreakIn n s2
      | none => if t.state = .calling ∧ t.opening = [] then callBoundary n h s1 else beginNext n s1

/-- A preamble ends (R124, R169). -/
def endPreamble (n : LineNo) (s : State) : State := enterIdle n (endSending n s)

/-- A break-in ends (R137, R156, R163). -/
def endBreakIn (n : LineNo) (s : State) : State :=
  let s1 := endSending n s
  if s1.lines[n].tx.stopping then disableTakesEffect n s1
  else if s1.lines[n].tx.breakInPending then
    let s2 := updTx n (fun t => { t with breakInPending := false }) s1
    if pauses s2.lines[n] then enterPause n s2 else beginCall n (selectOr n (enterIdle n) s2)
  else enterIdle n s1

/-- A sending of this kind is in progress. -/
def sendingIs (k : SendKind) (t : Transmitter) : Bool :=
  match t.sending with
  | some g => g.kind == k
  | none => false

/-- FRAME_START (R45, R122). -/
def execFrameStart (n : LineNo) (s : State) : Host.Outcome State Fault Refusal :=
  lineEvent n (fun l => enabled l && l.tx.sending.isNone && hasNext l.tx) (beginNext n) s

/-- CHARACTER_BOUNDARY (R136). -/
def execCharacterBoundary (n : LineNo) (s : State) : Host.Outcome State Fault Refusal :=
  lineEvent n (fun l => frameInProgress l.tx) (boundary n) s

/-- PREAMBLE_END (R124). -/
def execPreambleEnd (n : LineNo) (s : State) : Host.Outcome State Fault Refusal :=
  lineEvent n (fun l => sendingIs .preamble l.tx) (endPreamble n) s

/-- BREAK_IN_END (R137, R163). -/
def execBreakInEnd (n : LineNo) (s : State) : Host.Outcome State Fault Refusal :=
  lineEvent n (fun l => sendingIs .breakIn l.tx) (endBreakIn n) s

/-! ## Reads (R131, R132) -/

/-- The read of head word 1 completes: the effective length is known (R131). -/
def headReadDone (n : LineNo) (v : Word) (s : State) : State :=
  completeIfEnded n (advanceText n
    (updTx n (fun t => { t with effLen := min v.toNat Config.textCapacity, lenKnown := true }) s))

/-- The bytes of a text word that join the holding: low byte first, none at or above the effective length (R132). -/
def joiningBytes (t : Transmitter) (v : Word) : List Byte :=
  (if t.readPos < t.effLen then [v.extractLsb' 0 8] else []) ++
    (if t.readPos + 1 < t.effLen then [v.extractLsb' 8 8] else [])

/-- A text read completes (R132). -/
def textReadDone (n : LineNo) (v : Word) (s : State) : State :=
  completeIfEnded n (advanceText n
    (updTx n (fun t => { t with holding := t.holding ++ joiningBytes t v, readPos := t.readPos + 2 }) s))

/-- A transmitter's link read completes: the next block, or the end of the text (R132). -/
def textLinkDone (n : LineNo) (v : Word) (s : State) : State :=
  completeIfEnded n (advanceText n (updTx n (fun t =>
    if v.toNat < s.office.held.poolBlocks then { t with curBlock := v.toNat, curIndex := t.curIndex + 1 }
    else { t with effLen := t.readPos }) s))

/-- TRANSMIT_HEAD_READ_COMPLETION (R131). -/
def execTransmitHeadReadCompletion (s : State) : Host.Outcome State Fault Refusal :=
  transmitterCompletion (· == .txHead) headReadDone s

/-- TEXT_READ_COMPLETION (R132). -/
def execTextReadCompletion (s : State) : Host.Outcome State Fault Refusal :=
  transmitterCompletion (· == .txText) textReadDone s

/-- TRANSMIT_LINK_READ_COMPLETION (R132). -/
def execTransmitLinkReadCompletion (s : State) : Host.Outcome State Fault Refusal :=
  transmitterCompletion (· == .txLink) textLinkDone s

/-! ## Party lines (R144 to R156) -/

/-- The guard count expires (R146). -/
def expireGuard (n : LineNo) (s : State) : State :=
  selectOr n (enterIdle n) (updTx n (fun t => { t with guardCount := none }) s)

/-- The answer count expires: the member stays unanswered (R153). -/
def expireAnswer (n : LineNo) (s : State) : State :=
  let s1 := updTx n (fun t => { t with answerCount := none, answerWindow := [] }) s
  match s.lines[n].tx.hand, s.lines[n].tx.callPos with
  | some h, some pos => nextMember n h pos s1
  | _, _ => s1

/-- A sending is in progress on a party line in a state the collision check covers (R148). -/
def collisionDue (l : LineUnit) : Bool := echoes l && l.tx.sending.isSome

/-- The backoff is started from 0, anew if the line is still backing off: an expiry of the older count that is not yet
taken is then void (R55, R149, R150). DESIGN CHOICE (log 47): the void mark. -/
def startBackoff (n : LineNo) : State → State :=
  updTx n (fun t => { t with
    backingOff := true, backoffCount := some 0, backoffVoid := t.backoffVoid || backoffExpired n t })

/-- A collision (R149). -/
def collide (n : LineNo) (s : State) : State :=
  let s1 := dropHand n (giveBackHand n 4 (abandonSending n s))
  let s2 := updTx n (fun t => { t with owed := none, breakInPending := false }) s1
  if s2.lines[n].tx.stopping then disableTakesEffect n s2
  else enterIdle n (startBackoff n s2)

/-- The backoff count expires (R150); a void expiry changes nothing but the mark (R55). DESIGN CHOICE (log 47): the void
mark. -/
def expireBackoff (n : LineNo) (s : State) : State :=
  if s.lines[n].tx.backoffVoid then updTx n (fun t => { t with backoffVoid := false }) s
  else
    let s1 := updTx n (fun t => { t with backingOff := false, backoffCount := none }) s
    if s1.lines[n].tx.state = .idle then tellQueue n s1 else s1

/-- GUARD_EXPIRY (R146). -/
def execGuardExpiry (n : LineNo) (s : State) : Host.Outcome State Fault Refusal :=
  lineEvent n (fun l => l.tx.state == .guarding) (expireGuard n) s

/-- ANSWER_TIMEOUT_EXPIRY (R153). -/
def execAnswerTimeoutExpiry (n : LineNo) (s : State) : Host.Outcome State Fault Refusal :=
  lineEvent n (fun l => l.tx.state == .answerWait) (expireAnswer n) s

/-- COLLISION (R149). -/
def execCollision (n : LineNo) (s : State) : Host.Outcome State Fault Refusal :=
  lineEvent n collisionDue (collide n) s

/-- BACKOFF_EXPIRY (R150). -/
def execBackoffExpiry (n : LineNo) (s : State) : Host.Outcome State Fault Refusal :=
  lineEvent n (fun l => l.tx.backingOff) (expireBackoff n) s

end Sys2Proof.Machine
end

