-- ==== Sys2Proof/Machine/Clock.lean ====
section
/-! DEFINITION. What the part does when no command waits (log 1): it queues the events of its own that are due; else it
takes the next change of its inputs; else one cycle of the reference clock passes. A cycle counts the seconds divider
and the sample dividers, may end the store cycle in progress, and at a sample tick counts the line's samples, timers and
sendings (R43 to R55, R145, R148, R150). What a cycle brings about is queued as commands, in an order that is free where
several fall together (log 9). -/

namespace Sys2Proof.Machine

/-! ## A sample tick of one line -/

/-- The line after a part of its tick, with the events that part makes. -/
abbrev Ticked := LineUnit × List Instr

/-- A further part of the tick. -/
def Ticked.andThen (t : Ticked) (f : LineUnit → Ticked) : Ticked :=
  let u := f t.1
  (u.1, t.2 ++ u.2)

/-- An event, if its condition holds. -/
def eventIf (c : Bool) (e : Instr) : List Instr := if c then [e] else []

/-- The level runs and their detections (R51 to R54), and the idle timeout's restart (R78). -/
def tickRuns (n : LineNo) (mark : Bool) (l : LineUnit) : Ticked :=
  if mark then
    (markSample (min 64 (l.markRun + 1)) l,
      eventIf l.inBreak (.breakEnd n) ++ eventIf (l.markRun == 63) (.steadyMark n))
  else
    (spaceSample (min 4096 (l.spaceRun + 1)) l,
      eventIf (l.spaceRun == 127) (.breakDetection n) ++ eventIf (l.spaceRun == 4095) (.loopOpen n))

/-- The majority of three levels (R47, R48, R148). -/
def majority (a b c : Bool) : Bool := (a && b) || (a && c) || (b && c)

/-- Three levels that are not all one (R49). -/
def disagree (a b c : Bool) : Bool := a != b || b != c

/-- A sample of a character in progress (R47 to R49): votes at samples 5, 13, ... 53. -/
def tickCharacter (n : LineNo) (mark : Bool) (l : LineUnit) : Ticked :=
  let k := l.sampler.sample + 1
  let vote := majority l.recent.1 l.recent.2 mark
  let counted : Sampler := { l.sampler with sample := k }
  if k % 8 ≠ 5 then ({ l with sampler := counted }, [])
  else
    let heard : Sampler := { counted with noise := l.sampler.noise || disagree l.recent.1 l.recent.2 mark }
    if k = 5 then
      if vote then ({ l with sampler := counted }, [.falseStart n (!mark)]) else ({ l with sampler := heard }, [])
    else if k < 53 then
      ({ l with sampler := { heard with
          code := l.sampler.code ||| BitVec.ofNat 5 (if vote then 2 ^ (k / 8 - 1) else 0) } }, [])
    else ({ l with sampler := heard }, [.characterCompletion n l.sampler.code heard.noise (!vote) mark])

/-- The sampler at a tick (R46). -/
def tickSampler (n : LineNo) (mark : Bool) (l : LineUnit) : Ticked :=
  match l.sampler.state with
  | .waitMark => (if mark then { l with sampler := { l.sampler with state := .waitStart } } else l, [])
  | .waitStart => (l, eventIf (!mark) (.startEdge n))
  | .inCharacter => tickCharacter n mark l

/-- The idle timeout at a mark sample (R55, R78). -/
def tickIdleTimer (h : HeldSetup) (n : LineNo) (mark : Bool) (l : LineUnit) : Ticked :=
  match l.rx.idleTimer with
  | some k =>
    if mark then
      ({ l with rx := { l.rx with idleTimer := some (k + 1) } },
        eventIf (decide (64 * h.idleTimeout ≤ k + 1)) (.idleTimeoutExpiry n))
    else (l, [])
  | none => (l, [])

/-- After a mark sample the sampler is in WAIT START, but for a character that goes on: the mark that ends one, at a false
start or at sample 53, puts it there (R46 to R48). -/
def samplerAwaits (l : LineUnit) : Bool :=
  match l.sampler.state with
  | .waitMark => false
  | .waitStart => true
  | .inCharacter => l.sampler.sample == 53 || (l.sampler.sample == 5 && majority l.recent.1 l.recent.2 true)

/-- The loop is idle at this tick: receiver HUNTING and sampler in WAIT START after the sample (R145; log 13). -/
def loopIdle (mark : Bool) (l : LineUnit) : Bool := mark && l.rx.state == .hunting && samplerAwaits l

/-- The guard count and the backoff count (R145, R150). -/
def tickSeizure (h : HeldSetup) (n : LineNo) (mark : Bool) (l : LineUnit) : Ticked :=
  if loopIdle mark l then
    ({ l with tx := { l.tx with guardCount := l.tx.guardCount.map (· + 1)
                                backoffCount := l.tx.backoffCount.map (· + 1) } },
      eventIf (l.tx.guardCount.any (fun k => 64 * h.guardTime ≤ k + 1)) (.guardExpiry n)
        ++ eventIf (l.tx.backoffCount.any (fun k => 64 * (n.val % 4 + 1) ≤ k + 1)) (.backoffExpiry n))
  else (l, [])

/-- The answer count (R152). -/
def tickAnswer (h : HeldSetup) (n : LineNo) (l : LineUnit) : Ticked :=
  ({ l with tx := { l.tx with answerCount := l.tx.answerCount.map (· + 1) } },
    eventIf (l.tx.answerCount.any (fun k => 64 * h.answerTimeout ≤ k + 1)) (.answerTimeoutExpiry n))

/-- The event that ends a sending (R44, R45). -/
def sendingEnd (n : LineNo) : SendKind → Instr
  | .frame _ _ => .characterBoundary n
  | .preamble => .preambleEnd n
  | .breakIn => .breakInEnd n

/-- The collision check falls at sample `i` of the sending: sample 5 of a whole element sent as mark (R148). -/
def collisionSample (k : SendKind) (i : Nat) : Bool :=
  i % 8 == 5 && decide (i / 8 * 8 + 8 ≤ k.length) && k.level i

/-- The sending in progress, or one that is ready to begin (R44, R45, R122, R148). -/
def tickSending (n : LineNo) (mark : Bool) (l : LineUnit) : Ticked :=
  match l.tx.sending with
  | none => (l, eventIf (hasNext l.tx) (.frameStart n))
  | some g =>
    let i := g.sample + 1
    if g.kind.length ≤ i then (l, [sendingEnd n g.kind])
    else
      ({ l with tx := { l.tx with sending := some { g with sample := i }, send := g.kind.level i } },
        eventIf (collisionSample g.kind i && collisionDue l && !majority l.recent.1 l.recent.2 mark) (.collision n))

/-- The last two levels of the line (R47, R148). -/
def tickRecent (mark : Bool) (l : LineUnit) : Ticked := ({ l with recent := (l.recent.2, mark) }, [])

/-- A sample tick (R43, R46, R50 to R55). -/
def sampleTick (h : HeldSetup) (n : LineNo) (mark : Bool) (l : LineUnit) : Ticked :=
  (tickRuns n mark l).andThen (tickSampler n mark) |>.andThen (tickIdleTimer h n mark)
    |>.andThen (tickSeizure h n mark) |>.andThen (tickAnswer h n) |>.andThen (tickSending n mark)
    |>.andThen (tickRecent mark)

/-! ## One cycle of the reference clock -/

/-- The sample divider of an enabled line: a tick at the end of the sample period (R43). -/
def cycleLine (h : HeldSetup) (n : LineNo) (mark : Bool) (l : LineUnit) : Ticked :=
  if !enabled l then (l, [])
  else if samplePeriod l.active ≤ l.divider + 1 then sampleTick h n mark { l with divider := 0 }
  else ({ l with divider := l.divider + 1 }, [])

/-- The cycle on line n. -/
def cycleOne (acc : State × List Instr) (n : LineNo) : State × List Instr :=
  let s := acc.1
  let t := cycleLine s.office.held n s.pins.recv[n] s.lines[n]
  (updLine n (fun _ => t.1) s, acc.2 ++ t.2)

/-- The seconds divider (R57). -/
def cycleSeconds (s : State) : State × List Instr :=
  if running s then
    (updOffice (fun o => { o with divider := o.divider + 1 }) s,
      eventIf (decide (Config.cyclesPerSecond ≤ s.office.divider + 1)) .clockAdvance)
  else (s, [])

/-- The row that a completion of this purpose is (R11). -/
def completionCommand : Purpose → Instr
  | .setupRead => .setupReadCompletion
  | .poolLink true => .poolBuildEnd
  | .walkLink => .linkReadCompletion
  | .handOverHead => .handOverHeadWriteCompletion
  | .postLink => .postingLinkReadCompletion
  | .postHeadRead => .postingHeadReadCompletion
  | .postHeadWrite true => .postingHeadWriteCompletion
  | .reportWord true => .reportWordCompletion
  | .txHead => .transmitHeadReadCompletion
  | .txText => .textReadCompletion
  | .txLink => .transmitLinkReadCompletion
  | .poolLink false => .internalWriteCompletion
  | .freeLink => .internalWriteCompletion
  | .rxByte => .internalWriteCompletion
  | .rxLink => .internalWriteCompletion
  | .rxClose _ => .internalWriteCompletion
  | .rewrite => .internalWriteCompletion
  | .postHeadWrite false => .internalWriteCompletion
  | .reportWord false => .internalWriteCompletion

/-- SREADY ends the store cycle in progress (R2, R11, log 25). -/
def cycleStore (s : State) : List Instr :=
  match s.port.cycle with
  | some (.forwarded _) => eventIf s.pins.sready .forwardedAccessCompletion
  | some (.internal r) => eventIf s.pins.sready (completionCommand r.purpose)
  | none => []

/-- Events of the part's own are queued, in an order that is free (log 9). -/
def queueEvents (evs : List Instr) (s : State) : State :=
  { s with
    pending := s.pending ++ Config.ordered s.freeCount evs
    freeCount := if 2 ≤ evs.length then s.freeCount + 1 else s.freeCount }

/-- One reference cycle passes; while reset is asserted nothing counts (R18, R43, R57). -/
def clockCycle (s : State) : State :=
  if s.resetIn then s
  else
    let c := cycleSeconds s
    let t := (List.finRange 24).foldl cycleOne (c.1, c.2 ++ cycleStore s)
    queueEvents t.2 t.1

/-! ## Due events and inputs -/

/-- What a receiver does of its own accord at the first moment it may: an idle close, else a take (R63, R78). -/
def receiverDue (s : State) (n : LineNo) : Option Instr :=
  let r := s.lines[n].rx
  if mayIdleClose (isStarved s n) r then some (.idleClose n)
  else if mayTake (isStarved s n) r then some (.receiverTake n)
  else none

/-- The part's own events that are due (R9, R63, R78; log 8). -/
def dueEvents (s : State) : List Instr :=
  if s.resetIn then []
  else eventIf (placementDue s) .requestPlacement ++ (List.finRange 24).filterMap (receiverDue s)

/-- A change of the inputs (log 4). -/
def applyInput (i : PinInput) (s : State) : State :=
  match i with
  | .recv n mark => { s with pins := { s.pins with recv := s.pins.recv.set n.val mark n.isLt } }
  | .hold level =>
    if level && !s.pins.hold then { s with pending := s.pending ++ [.holdLatching] } else holdLevel level s
  | .straps level => { s with pins := { s.pins with straps := level } }
  | .sready level => { s with pins := { s.pins with sready := level } }
  | .read addr => if pwait s then s else settle (processorRead addr s)
  | .cycles k =>
    match k with
    | 0 => s
    | j + 1 => clockCycle { s with inputs := .cycles j :: s.inputs }

/-- No command waits: due events, else the next input, else one reference cycle (log 1). -/
def idle (s : State) : State :=
  match dueEvents s with
  | e :: evs => queueEvents (e :: evs) s
  | [] =>
    match s.inputs with
    | i :: rest => applyInput i { s with inputs := rest }
    | [] => clockCycle s

end Sys2Proof.Machine
end

