-- ==== Sys2Proof/Machine/PoolAndWalks.lean ====
section
/-! DEFINITION. The commands of the Pool Unit, the Chain Walker and the Post Unit (spec/02, spec/10). -/

namespace Sys2Proof.Machine

/-- CLAIM (R24). -/
def execClaim (s : State) : Host.Outcome State Fault Refusal := readEvent (pageAddr s 34) s

/-- RETURN_WORD (R27). -/
def execReturnWord (data : Word) (be : ByteEnables) (s : State) : Host.Outcome State Fault Refusal :=
  writeEvent (pageAddr s 17) ⟨data, be⟩ s

/-- POOL_WRITE (R29). -/
def execPoolWrite (addr : Addr) (data : Word) (be : ByteEnables) (s : State) : Host.Outcome State Fault Refusal :=
  writeEvent addr ⟨data, be⟩ s

/-- LINK_READ_COMPLETION (R34). -/
def execLinkReadCompletion (s : State) : Host.Outcome State Fault Refusal :=
  walkCompletion (· == .walkLink) linkReadDone s

/-- HAND_OVER_HEAD_WRITE_COMPLETION (R37). -/
def execHandOverHeadWriteCompletion (s : State) : Host.Outcome State Fault Refusal :=
  walkCompletion (· == .handOverHead) (fun w _ s => handOverHeadDone w s) s

/-- POSTING_LINK_READ_COMPLETION (R38). -/
def execPostingLinkReadCompletion (s : State) : Host.Outcome State Fault Refusal :=
  walkCompletion (· == .postLink) postLinkDone s

/-- POSTING_HEAD_READ_COMPLETION (R39, R173, R174). -/
def execPostingHeadReadCompletion (s : State) : Host.Outcome State Fault Refusal :=
  walkCompletion (· == .postHeadRead) postHeadReadDone s

/-- POSTING_HEAD_WRITE_COMPLETION (R175). -/
def execPostingHeadWriteCompletion (s : State) : Host.Outcome State Fault Refusal :=
  walkCompletion (· == .postHeadWrite true) (fun w _ s => postingDone w s) s

/-- POST_WORD (R171). -/
def execPostWord (data : Word) (be : ByteEnables) (s : State) : Host.Outcome State Fault Refusal :=
  writeEvent (pageAddr s 18) ⟨data, be⟩ s

end Sys2Proof.Machine
end

