-- ==== Sys2Proof/Machine/Dispatch.lean ====
section
/-! DEFINITION. The meaning of every command: one arm per row of spec/opcode_table.json. -/

namespace Sys2Proof.Machine

/-- The effect of a command on everything but the queue of commands. -/
def exec (i : Instr) (s : State) : Host.Outcome State Fault Refusal :=
  match i with
  | .resetAsserted => Sys2Proof.Machine.execResetAsserted s
  | .resetDeasserted straps hold => Sys2Proof.Machine.execResetDeasserted straps hold s
  | .processorWrite addr data be => Sys2Proof.Machine.execProcessorWrite addr data be s
  | .forwardedAccessCompletion => Sys2Proof.Machine.execForwardedAccessCompletion s
  | .requestPlacement => Sys2Proof.Machine.execRequestPlacement s
  | .internalWriteCompletion => Sys2Proof.Machine.execInternalWriteCompletion s
  | .startWord data be => Sys2Proof.Machine.execStartWord data be s
  | .setupReadCompletion => Sys2Proof.Machine.execSetupReadCompletion s
  | .poolBuildEnd => Sys2Proof.Machine.execPoolBuildEnd s
  | .claim => Sys2Proof.Machine.execClaim s
  | .returnWord data be => Sys2Proof.Machine.execReturnWord data be s
  | .poolWrite addr data be => Sys2Proof.Machine.execPoolWrite addr data be s
  | .linkReadCompletion => Sys2Proof.Machine.execLinkReadCompletion s
  | .handOverHeadWriteCompletion => Sys2Proof.Machine.execHandOverHeadWriteCompletion s
  | .postingLinkReadCompletion => Sys2Proof.Machine.execPostingLinkReadCompletion s
  | .postingHeadReadCompletion => Sys2Proof.Machine.execPostingHeadReadCompletion s
  | .postingHeadWriteCompletion => Sys2Proof.Machine.execPostingHeadWriteCompletion s
  | .postWord data be => Sys2Proof.Machine.execPostWord data be s
  | .characterCompletion line code noise framing lastMark => Sys2Proof.Machine.execCharacterCompletion line code noise framing lastMark s
  | .receiverTake line => Sys2Proof.Machine.execReceiverTake line s
  | .idleTimeoutExpiry line => Sys2Proof.Machine.execIdleTimeoutExpiry line s
  | .idleClose line => Sys2Proof.Machine.execIdleClose line s
  | .breakDetection line => Sys2Proof.Machine.execBreakDetection line s
  | .loopOpen line => Sys2Proof.Machine.execLoopOpen line s
  | .steadyMark line => Sys2Proof.Machine.execSteadyMark line s
  | .commitStations be => Sys2Proof.Machine.execCommitStations be s
  | .stationShadowWrite entry word data be => Sys2Proof.Machine.execStationShadowWrite entry word data be s
  | .cancelWord data be => Sys2Proof.Machine.execCancelWord data be s
  | .clockAdvance => Sys2Proof.Machine.execClockAdvance s
  | .clockSetHigh data be => Sys2Proof.Machine.execClockSetHigh data be s
  | .clockSetLow data be => Sys2Proof.Machine.execClockSetLow data be s
  | .enable line be => Sys2Proof.Machine.execEnable line be s
  | .disable line be => Sys2Proof.Machine.execDisable line be s
  | .lineReset line be => Sys2Proof.Machine.execLineReset line be s
  | .lineSettingsWord line data be => Sys2Proof.Machine.execLineSettingsWord line data be s
  | .preambleEnd line => Sys2Proof.Machine.execPreambleEnd line s
  | .transmitHeadReadCompletion => Sys2Proof.Machine.execTransmitHeadReadCompletion s
  | .textReadCompletion => Sys2Proof.Machine.execTextReadCompletion s
  | .transmitLinkReadCompletion => Sys2Proof.Machine.execTransmitLinkReadCompletion s
  | .characterBoundary line => Sys2Proof.Machine.execCharacterBoundary line s
  | .breakInEnd line => Sys2Proof.Machine.execBreakInEnd line s
  | .guardExpiry line => Sys2Proof.Machine.execGuardExpiry line s
  | .answerTimeoutExpiry line => Sys2Proof.Machine.execAnswerTimeoutExpiry line s
  | .collision line => Sys2Proof.Machine.execCollision line s
  | .backoffExpiry line => Sys2Proof.Machine.execBackoffExpiry line s
  | .holdLatching => Sys2Proof.Machine.execHoldLatching s
  | .resume be hold => Sys2Proof.Machine.execResume be hold s
  | .reportReadIndex data be => Sys2Proof.Machine.execReportReadIndex data be s
  | .reportWordCompletion => Sys2Proof.Machine.execReportWordCompletion s
  | .startEdge line => Sys2Proof.Machine.execStartEdge line s
  | .falseStart line lastSpace => Sys2Proof.Machine.execFalseStart line lastSpace s
  | .breakEnd line => Sys2Proof.Machine.execBreakEnd line s
  | .frameStart line => Sys2Proof.Machine.execFrameStart line s

end Sys2Proof.Machine
end

