-- ==== Sys2Proof/Safety.lean ====
section
/-! DEFINITION. The notions in which the statements about the part are made: a state in which an event brings about no
further walk, an offered report, a request that joins the Store Port, and the invariant that every step keeps. -/

namespace Sys2Proof.Machine

/-! ## The end of an event -/

/-- RESET is not asserted, no walk begins at the end of an event that asks for none (R31), and no report is on offer. -/
abbrev Quiet (s : State) : Prop :=
  s.resetIn = false ∧ (s.walker.walk ≠ none ∨ s.walker.queue = []) ∧ s.report.offers = []

/-- A quiet state in which the processor can present an access (R1). -/
abbrev Accessible (s : State) : Prop := Quiet s ∧ pwait s = false

/-- The end of an event that starts no walk and offers no report: a free bus takes waiting work (R10) and ATTN follows (R185). -/
def eventEnd (s : State) : State := updateAttn (startCycle s)

/-- `t` is `e` but for the Store Port and the Report Unit. -/
def SamePart (e t : State) : Prop := { t with port := e.port, report := e.report } = e

/-- What a walk that begins at the end of an event may bring about in a receiver it gives a block to: no message for the
Router and no settings transfer. It is so while a walk is in progress, for then none begins. -/
abbrev WalksApart (s : State) : Prop :=
  s.walker.walk ≠ none ∨ ∀ m ∈ s.pool.starved, s.lines[m].rx.state = .closing →
    s.lines[m].rx.asm.incomplete = true ∧ s.lines[m].settingsPending = false

/-! ## The Store Port -/

/-- The queue has room for `k` more requests and no issuer waits (R9). -/
abbrev Room (k : Nat) (s : State) : Prop := s.port.waiting = [] ∧ s.port.queue.length + k ≤ Config.queuePlaces

/-- The store cycle of the internal request `r` is in progress (R10). -/
abbrev Serving (r : Req) (s : State) : Prop := s.port.cycle = some (.internal r)

/-- SREADY has ended the store cycle in progress. -/
def ended (s : State) : State := { s with port := { s.port with cycle := none } }

/-- The internal requests that have joined the queue and are not completed, in the order in which they are served (R8). -/
def requests (s : State) : List Req :=
  (match s.port.cycle with
    | some (.internal r) => [r]
    | _ => []) ++ s.port.queue

/-- The access is with the Store Port: it waits for the store or is in its store cycle (R1, R2). -/
def Forwards (a : Access) (s : State) : Prop := s.port.fwd = some a ∨ s.port.cycle = some (.forwarded a)

/-- A processor write to a control-page offset. -/
def pageWrite (s : State) (off : Nat) (v : Word) (be : ByteEnables) : Access := ⟨pageAddr s off, some ⟨v, be⟩⟩

/-- The request with which an issuer waits (R9). -/
def keptRequest (s : State) : Issuer → Option Req
  | .receiver n => s.lines[n].rx.unplaced
  | .transmitter n => s.lines[n].tx.out.head?
  | .walker => s.walker.offered
  | .delivery => nextRewrite s
  | .report => nextReportWord s
  | .office => nextSetupRead s

/-- The commands that are writes of a snooped word of the control page, but for RESUME: offset, value, byte enables. -/
def pageCommand : Instr → Option (Nat × Word × ByteEnables)
  | .startWord v be => some (16, v, be)
  | .returnWord v be => some (17, v, be)
  | .postWord v be => some (18, v, be)
  | .reportReadIndex v be => some (19, v, be)
  | .commitStations be => some (20, 1, be)
  | .cancelWord v be => some (21, v, be)
  | .clockSetHigh v be => some (22, v, be)
  | .clockSetLow v be => some (23, v, be)
  | .enable n be => some (128 + n.val, 1, be)
  | .disable n be => some (128 + n.val, 2, be)
  | .lineReset n be => some (128 + n.val, 3, be)
  | .lineSettingsWord n v be => some (160 + n.val, v, be)
  | .stationShadowWrite k w v be => some (256 + 4 * k.val + w.val, v, be)
  | _ => none

/-! ## Reports -/

/-- A report with qualifier 0 (R187). -/
def plainReport (kind : ReportKind) (line : Nat) (block detail : Word) (time : BitVec 32) : Record :=
  { kind := kind, qualifier := 0, line := line, block := block, detail := detail, time := time }

/-- `t` is `e` after report `r` alone was offered to the Report Unit and the event ended (R182): every other part is as in
`e`; below the ring size the record is accepted at the fill index, else it is lost and counted. The record list of `t`
holds what of the accepted records is not yet placed. -/
structure Offers (r : Record) (e t : State) : Prop where
  part : SamePart e t
  write : t.report.write = e.report.write
  read : t.report.read = e.report.read
  badRead : t.report.badRead = e.report.badRead
  attn : t.report.attn = attnCondition t
  accepted : heldCount e < ringSize e →
    t.report.fill = e.report.fill + 1 ∧ t.report.overflow = e.report.overflow ∧ t.report.tally = e.report.tally ∧
      t.report.records <:+ e.report.records ++ [(e.report.fill, r)]
  discarded : ringSize e ≤ heldCount e →
    t.report.fill = e.report.fill ∧ t.report.overflow = true ∧ t.report.tally = min 255 (e.report.tally + 1) ∧
      t.report.records <:+ e.report.records

/-- The Report Unit has placed all its words, and its ring takes `k` more records (R182, R183). -/
abbrev RingRoom (k : Nat) (s : State) : Prop :=
  s.report.records = [] ∧ s.report.wordNext = 0 ∧ heldCount s + k ≤ ringSize s

/-- The four word writes of the record of index `x` (R183). -/
def reportWords (s : State) (x : Word) (r : Record) : List Req :=
  (List.range 4).map (fun w =>
    wordReq (BitVec.ofNat 18 (s.office.held.ringBase * 64 + x.toNat % (16 * 2 ^ s.office.held.ringCode) * 4 + w))
      (r.word w) .report (.reportWord (w == 3)))

/-! ## The end of a delivery, of a line and of a post -/

/-- The Delivery Unit after delivery `d`, ACTIVE on line `n`, is freed: the entry leaves its queue and the active place, the
outstanding count of its message becomes `count`, and the head rewrite is decided with these reports attached and, at count
0, with the request of the walk that ends the message (R103, R104, R114, R177). -/
def freedDelivery (s : State) (n : LineNo) (d : DeliveryNo) (count : Nat) (reports : List Record) : DeliveryUnit :=
  let k := s.du.entries[d].transit
  let e := s.du.transit[k]
  { s.du with
    entries := s.du.entries.set d { s.du.entries[d] with state := .free, cancelPending := false }
    queues := s.du.queues.set n (s.du.queues[n].filter (fun x => x != d))
    active := s.du.active.set n none
    transit := s.du.transit.set k { e with
      outstanding := count, state := if count = 0 then .releasing else e.state }
    rewrites := addRewrite (blockWord s e.first 6) count reports
      (if count = 0 then
        some ⟨if e.autoRelease then .release else .handOver, e.first, e.blockCount, e.origin, 0, some k⟩
       else none) s.du.rewrites }

/-- The Delivery Unit after delivery `d`, ACTIVE on line `n`, is given back as an interruption: QUEUED at the head of the
line queue with its attempts unchanged, repeated if SENDING had begun (R110). -/
def interruptedDelivery (s : State) (n : LineNo) (d : DeliveryNo) (begun : Bool) : DeliveryUnit :=
  { s.du with
    entries := s.du.entries.set d { s.du.entries[d] with
      state := .queued, repeatFlag := s.du.entries[d].repeatFlag || begun }
    queues := s.du.queues.set n (d :: s.du.queues[n])
    active := s.du.active.set n none }

/-- A line with no message in progress after a DISABLE took effect: receiver and transmitter OFF, with the settings, the
faulted flag, the tallies, the noise indication and the abandon list kept, and the placed reads to be discarded (R80,
R126). -/
def offLine (l : LineUnit) : LineUnit :=
  { l with
    divider := 0, spaceRun := 0, markRun := 0, recent := (true, true), inBreak := false, recovery := false,
    sampler := Sampler.reset,
    rx := { l.rx with state := .off, fifo := [], pendingGap := false, window := [], asm := Assembly.reset,
                      idleClose := false, closePoint := 0, idleTimer := none, closeNext := 0 },
    tx := { Transmitter.reset with stale := l.tx.stale + l.tx.live } }

/-- `e` with line `n`'s receiver off the starved list, its unplaced request dropped and this abandon list (R28, R81). -/
def handedOver (n : LineNo) (list : List Abandonment) (e : State) : State :=
  { e with
    pool := { e.pool with starved := e.pool.starved.filter (fun m => m != n) }
    lines := e.lines.set n { e.lines[n] with rx := { e.lines[n].rx with unplaced := none, abandon := list } } }

/-- What R80 and R81 add to an event that takes line `n`'s receiver of `s` OFF and makes `e` of all else; `P` says of the
state so reached what the event says of its next state. In HUNTING nothing is added. The chain of a message in progress or
closed is handed over: an abandon request waits for the receiver's placed requests, or, with none, goes to the Chain Walker;
a block whose link write is dropped goes back to the pool and is not counted. -/
structure ReceiverGoesOff (n : LineNo) (s e : State) (P : State → Prop) : Prop where
  hunting : s.lines[n].rx.state = .hunting → P e
  waits : ∀ f, s.lines[n].rx.state = .header ∨ s.lines[n].rx.state = .text ∨ s.lines[n].rx.state = .closing →
    s.lines[n].rx.asm.first = some f → 0 < s.lines[n].rx.asm.blockCount →
    (s.lines[n].rx.unplaced = none ∨
      (1 < s.lines[n].rx.asm.storedLength ∧ ∀ q, s.lines[n].rx.unplaced = some q → q.purpose ≠ .rxLink)) →
    0 < placedCount (.receiver n) s → (∀ a ∈ s.lines[n].rx.abandon, 0 < a.remaining) →
    P (handedOver n (s.lines[n].rx.abandon ++
      [⟨f, s.lines[n].rx.asm.blockCount, placedCount (.receiver n) s⟩]) e)
  given : ∀ f, s.lines[n].rx.state = .header ∨ s.lines[n].rx.state = .text ∨ s.lines[n].rx.state = .closing →
    s.lines[n].rx.asm.first = some f → 0 < s.lines[n].rx.asm.blockCount →
    (∀ q, s.lines[n].rx.unplaced = some q → q.purpose ≠ .rxLink) → placedCount (.receiver n) s = 0 →
    s.lines[n].rx.abandon = [] → s.walker.walk ≠ none →
    P { handedOver n [] e with walker := { e.walker with
      queue := e.walker.queue ++ [⟨.abandon, f, s.lines[n].rx.asm.blockCount, n.val, 0, none⟩] } }
  unlinked : ∀ f b count q, s.lines[n].rx.state = .header ∨ s.lines[n].rx.state = .text →
    s.lines[n].rx.asm.first = some f → s.lines[n].rx.asm.blockCount = count + 1 → 0 < count →
    s.lines[n].rx.asm.current = some b → 1 < s.lines[n].rx.asm.storedLength → s.lines[n].rx.unplaced = some q →
    q.purpose = .rxLink → 0 < placedCount (.receiver n) s → (∀ a ∈ s.lines[n].rx.abandon, 0 < a.remaining) →
    (∀ m ∈ s.pool.starved, m = n) → s.pool.free = [] →
    P { handedOver n (s.lines[n].rx.abandon ++ [⟨f, count, placedCount (.receiver n) s⟩]) e with
      pool := { map := s.pool.map.set b .free, free := [b], starved := [] } }

/-- A line after the latching event (R166): an OFF line as it was, a stopping one OFF, any other HELD with nothing in hand,
nothing owed and nothing being sent, its backing off indication and backoff count kept. -/
def latchedLine (l : LineUnit) : LineUnit :=
  if l.tx.state = .off then l
  else if l.tx.stopping then offLine l
  else { l with tx := { l.tx with
    state := .held, send := true, sending := none, hand := none, textBegun := false, holding := [], opening := [],
    lenKnown := false, callPos := none, answerCount := none, answerWindow := [], out := [],
    stale := l.tx.stale + l.tx.live, live := 0, owed := none, breakInPending := false, distantBreak := false,
    guardCount := none } }

/-- The request by which the Post Unit gives the next post to the Chain Walker, if one waits (R172). -/
def nextPost : List Word → List WalkRequest
  | [] => []
  | v :: _ => [⟨.posting, v.toNat, 0, 31, 0, none⟩]

/-! ## Messages -/

/-- Head words 1 to 15 of a closed message, bit by bit (Tables 4-5 and 12-5); a class not recognised is written as 2
(log 36). -/
def closedHead (n : LineNo) (a : Assembly) : List Word :=
  [BitVec.ofNat 16 a.storedLength,
   0#8 ++ BitVec.ofNat 8 a.blockCount,
   0#2 ++ BitVec.ofBool a.autoRelease ++ BitVec.ofBool a.incomplete ++ BitVec.ofBool a.headerFault ++
     BitVec.ofBool a.truncated ++ BitVec.ofBool a.mutilated ++ BitVec.ofBool a.complete ++ BitVec.ofNat 5 n.val ++
     BitVec.ofNat 3 (if a.stage = .precedence then 2 else a.cls),
   0#6 ++ a.origin.getD 0,
   a.serial,
   0#8 ++ BitVec.ofNat 8 a.dests.length] ++
  (List.range 8).map (fun i => 0#6 ++ a.dests.getD i 0) ++ [a.received.extractLsb' 0 16]

/-- The writes of a closing receiver: NONE into the link word of block `b`, then the head words of block `f` (R76). -/
def closeWrites (s : State) (n : LineNo) (f b : Nat) (a : Assembly) : List Req :=
  wordReq (blockWord s b 0) 65535 (.receiver n) (.rxClose false) ::
    (List.range 15).map (fun k =>
      wordReq (blockWord s f (k + 1)) ((closedHead n a).getD k 0) (.receiver n) (.rxClose (k == 14)))

/-- `p` is the assembly record `a` after the parse of a character that is not LF (R69, R70). -/
def Parsed (h : HeldSetup) (c : Code) (a p : Assembly) : Prop :=
  ((c = h.ltrs ∨ c = h.figs ∨ c = h.space ∨ c = h.cr ∨ a.stage = .done) ∧ p = a) ∨
  ((c ≠ h.ltrs ∧ c ≠ h.figs ∧ c ≠ h.space ∧ c ≠ h.cr) ∧
    ((a.stage = .precedence ∧
        ((∃ k, h.precedence[k]? = some c ∧ (∀ j, j < k → h.precedence[j]? ≠ some c) ∧
            p = { a with cls := k, stage := .stations }) ∨
          (c ∉ h.precedence ∧ p = { a with cls := 2, headerFault := true, stage := .stations }))) ∨
      (a.stage = .stations ∧ a.heldToken = none ∧ p = { a with heldToken := some c }) ∨
      (a.stage = .stations ∧ ∃ t, a.heldToken = some t ∧
        ((a.origin = none ∧ p = { a with heldToken := none, origin := some (t ++ c) }) ∨
          (a.origin ≠ none ∧ a.dests.length < 8 ∧ p = { a with heldToken := none, dests := a.dests ++ [t ++ c] }) ∨
          (a.origin ≠ none ∧ 8 ≤ a.dests.length ∧ p = { a with heldToken := none, headerFault := true })))))

/-! ## The clock and the WAITING deliveries -/

/-- No WAITING delivery's retry time is at or below `v` (R112). -/
def NoneDue (v : BitVec 32) (s : State) : Prop :=
  ∀ d : DeliveryNo, s.du.entries[d].state = .waiting → v.toNat < s.du.entries[d].retryTime.toNat

/-! ## The invariant -/

/-- What holds in every state of the part. -/
structure Sound (s : State) : Prop where
  /-- The store's memory is in canonical form. -/
  store : s.store.wf = true
  /-- The internal request queue holds at most 64 requests (R8). -/
  queue : s.port.queue.length ≤ Config.queuePlaces
  /-- A receive FIFO holds at most 8 entries (R62). -/
  fifo : ∀ n : LineNo, s.lines[n].rx.fifo.length ≤ Config.fifoPlaces
  /-- The post queue holds at most 4 numbers (R170). -/
  post : s.post.length ≤ Config.postPlaces
  /-- While RESET is asserted the Store Port is as R18 leaves it. -/
  inReset : s.resetIn = true → s.port = StorePort.reset
  /-- A free bus has no work waiting (R10). -/
  busy : s.resetIn = false → s.port.cycle ≠ none ∨ s.port.fwd = none ∧ s.port.queue = []
  /-- ATTN follows its conditions (R185). -/
  attn : s.report.attn = attnCondition s
  /-- Every report offered at an event was taken as it ended (R182). -/
  offers : s.report.offers = []
  /-- The setup lock is set exactly while the office is RUNNING (R12). -/
  lock : s.office.setupLock = running s
  /-- While a pool exists the block map has one entry for each block (R21). -/
  map : poolExists s = true → s.pool.map.length = s.office.held.poolBlocks

end Sys2Proof.Machine
end

