-- ==== Sys2Proof/Certificates/Slice0/Obligations.lean ====
section
/-! DEFINITION. The statements for the provers. Most say what one command answers: the next state is written out as the
state before with the fields it changes, so the equation is the command's result and its frame at once. `eventEnd` is
what ends every event (the Store Port starts a cycle on a free bus, ATTN follows); `SamePart E t` says that `t` is `E` but
for the Store Port and the Report Unit. -/

open Sys2Proof Sys2Proof.Machine

/-! ## The machine -/

/-- A step with a command at the front of the queue is that command's meaning on the state with the queue's rest. -/
def Obligations.StepRunsFrontCommand : Prop :=
  ∀ (s : State) (c : Instr) (rest : List Instr), s.pending = c :: rest → step s = exec c { s with pending := rest }

/-- The state after reset satisfies the invariant. -/
def Obligations.ResetSound : Prop := Sound State.reset

/-- Every step keeps the invariant, from every state that satisfies it. -/
def Obligations.StepKeepsSound : Prop := ∀ s t : State, Sound s → step s = .next t → Sound t

/-- A command changes the store only as the write of the store cycle in progress: at its completion, or (the model's free
value, log 10) at the reset that ends it. Every other word keeps what it held. -/
def Obligations.StoreChangesOnlyByCycle : Prop :=
  ∀ (c : Instr) (s t : State), exec c s = .next t →
    t.store = s.store ∨
      ∃ (cy : Cycle) (w : WriteData), s.port.cycle = some cy ∧ cy.access.write = some w ∧
        t.store = s.store.write cy.access.addr w ∧
        ∀ a : Addr, a ≠ cy.access.addr → t.store.readWord a = s.store.readWord a

/-- The held setup values change only at the validation event of a setup or at the deassertion of reset, the control-page
base only at the latter, and the active station table only there or at an accepted commit, when it takes the whole
shadow. -/
def Obligations.ConfigurationKept : Prop :=
  (∀ (c : Instr) (s t : State), exec c s = .next t →
     (t.office.held = s.office.held ∨ (c = .setupReadCompletion ∧ s.office.state = .setupRead) ∨
       ∃ p h, c = .resetDeasserted p h) ∧
     (t.path.straps = s.path.straps ∨ ∃ p h, c = .resetDeasserted p h)) ∧
  (∀ (c : Instr) (s t : State), exec c s = .next t →
     t.router.active = s.router.active ∨
       (running s = true ∧ commitFailure s.router.shadow = none ∧ t.router.active = s.router.shadow) ∨
       ∃ p h, c = .resetDeasserted p h)

/-! ## Reset -/

/-- The assertion of reset: the Store Port as R18 says, a processor access still waited for, the word under the ended
cycle old or new. -/
def Obligations.ResetAsserted : Prop :=
  ∀ s : State, s.resetIn = false →
    ∃ t, exec .resetAsserted s = .next t ∧ t.resetIn = true ∧ t.port = StorePort.reset ∧
      t.office.state = .dormant ∧ t.office.setupLock = false ∧ t.report.attn = false ∧ pwait t = pwait s ∧
      t.walker = ChainWalker.reset ∧ t.du.rewrites = [] ∧ t.report.records = [] ∧ t.report.offers = [] ∧
      t.du.entries = s.du.entries ∧ t.router = s.router ∧ t.pins = s.pins ∧ t.inputs = s.inputs ∧ t.pending = s.pending ∧
      (t.store = s.store ∨ ∃ (cy : Cycle) (w : WriteData), s.port.cycle = some cy ∧ cy.access.write = some w ∧
        t.store = s.store.write cy.access.addr w)

/-- R3, R19 and the reset rules of the chapters (R21, R22, R28, R31, R42, R43, R51, R52, R54, R56, R83, R86, R100, R120, R139,
R142, R159, R170, R181): the deassertion of reset, with the straps and HOLD sampled. An access held during reset is then
taken as a new arrival in DORMANT: it is the first served, but for a read of office status, which is substituted. That the
parse stage of a clear assembly record is PRECEDENCE is read from R70. -/
def Obligations.ResetDeassertion : Prop :=
  (∀ (s : State) (p : BitVec 4) (h : Bool), s.resetIn = true → s.path.held = none →
     ∃ t, exec (.resetDeasserted p h) s = .next t ∧ t.resetIn = false ∧ t.store = s.store ∧
       t.pending = s.pending ∧ t.inputs = s.inputs ∧ t.path.straps = p ∧
       t.port = { queue := [], waiting := [], fwd := none, cycle := none, lastServed := .internal } ∧
       (t.office.state = .dormant ∧ t.office.setupLock = false ∧ t.office.setupLocked = false ∧ t.office.refusal = 0 ∧
         t.office.setupWords = [] ∧ t.office.held = HeldSetup.reset ∧ t.office.clock = 0 ∧ t.office.captured = none ∧
         t.office.serial = 0 ∧ t.office.holdLatch = h ∧ t.office.holdStill = false) ∧
       (t.pool.map = [] ∧ t.pool.free = [] ∧ t.pool.starved = [] ∧ t.walker.queue = [] ∧ t.walker.walk = none ∧
         t.walker.links = [] ∧ t.post = []) ∧
       (∀ n : LineNo, (t.lines[n].active = ⟨844, true, .oneAndHalf, .pointToPoint⟩ ∧
         t.lines[n].shadow = ⟨844, true, .oneAndHalf, .pointToPoint⟩ ∧ t.lines[n].settingsPending = false) ∧
         (t.lines[n].tx.state = .off ∧ t.lines[n].tx.send = true ∧ t.lines[n].tx.hand = none ∧ t.lines[n].tx.holding = [] ∧
           t.lines[n].tx.readPos = 0 ∧ t.lines[n].tx.effLen = 0 ∧ t.lines[n].tx.sending = none ∧
           t.lines[n].tx.owed = none ∧ t.lines[n].tx.stopping = false ∧ t.lines[n].tx.distantBreak = false ∧
           t.lines[n].tx.breakInPending = false ∧ t.lines[n].tx.backingOff = false ∧
           t.lines[n].tx.guardCount = none ∧ t.lines[n].tx.backoffCount = none ∧ t.lines[n].tx.answerCount = none ∧
           t.lines[n].tx.callPos = none ∧ t.lines[n].tx.answerWindow = []) ∧
         (t.lines[n].rx.state = .off ∧ t.lines[n].rx.fifo = [] ∧ t.lines[n].rx.pendingGap = false ∧
           t.lines[n].rx.window = [] ∧ t.lines[n].rx.abandon = [] ∧ t.lines[n].rx.noise = false ∧
           t.lines[n].rx.idleTimer = none ∧ t.lines[n].rx.idleClose = false ∧
           t.lines[n].rx.asm =
             { serial := 0, received := 0, first := none, current := none, blockCount := 0, storedLength := 0,
               headerCount := 0, stage := .precedence, cls := 0, heldToken := none, origin := none, dests := [],
               mutilated := false, truncated := false, headerFault := false, incomplete := false, complete := false,
               autoRelease := false, awaiting := [] }) ∧
         (t.lines[n].divider = 0 ∧ t.lines[n].framing = 0 ∧ t.lines[n].overrun = 0 ∧ t.lines[n].faulted = false ∧
           t.lines[n].spaceRun = 0 ∧ t.lines[n].markRun = 0 ∧ t.lines[n].inBreak = false ∧
           t.lines[n].recovery = false)) ∧
       (∀ k : StationNo, t.router.active[k] = ⟨false, 0, 0, none, false, .inService, 0⟩ ∧
         t.router.shadow[k] = ⟨false, 0, 0, none, false, .inService, 0⟩) ∧
       ((∀ d : DeliveryNo, t.du.entries[d].state = .free) ∧ (∀ k : TransitNo, t.du.transit[k].state = .free) ∧
         (∀ n : LineNo, t.du.queues[n] = [] ∧ t.du.active[n] = none) ∧ t.du.rewrites = []) ∧
       (t.report.fill = 0 ∧ t.report.write = 0 ∧ t.report.read = 0 ∧ t.report.records = [] ∧ t.report.offers = [] ∧ t.report.overflow = false ∧
         t.report.badRead = false ∧ t.report.tally = 0 ∧ t.report.attn = false)) ∧
  (∀ (s : State) (p : BitVec 4) (h : Bool) (a : Access), s.resetIn = true → s.path.held = some a →
     ∃ t, exec (.resetDeasserted p h) s = .next t ∧ t.path.held = none ∧ t.store = s.store ∧ running t = false ∧
       if a.write = none ∧ a.addr.toNat = p.toNat * 16384 + 32 then
         t.path.pdOut = officeStatus t ∧ t.port.cycle = none
       else t.port.cycle = some (.forwarded a))

/-! ## The memory path -/

/-- A write to ordinary store is forwarded and does nothing else; during reset it is held. -/
def Obligations.ProcessorWrite : Prop :=
  ∀ (s : State) (addr : Addr) (v : Word) (be : ByteEnables),
    (Accessible s → pageOffset s addr = none → poolBlock s addr = none ∨ poolExists s = false →
      exec (.processorWrite addr v be) s = .next (eventEnd (forward ⟨addr, some ⟨v, be⟩⟩ s))) ∧
    (s.resetIn = true → pwait s = false →
      exec (.processorWrite addr v be) s =
        .next { s with path := { s.path with held := some ⟨addr, some ⟨v, be⟩⟩ }
                       report := { s.report with attn := false } })

/-- A write of a snooped word that is not taken is forwarded and changes nothing else: without both byte enables, before
RUNNING for the words taken only in RUNNING, and for the values of a control word that name no command. -/
def Obligations.SnoopNotTaken : Prop :=
  ∀ (s : State), Accessible s →
    (∀ (c : Instr) (off : Nat) (v : Word) (be : ByteEnables), pageCommand c = some (off, v, be) →
      be ≠ .both ∨ (s.office.state ≠ .running ∧ (17 ≤ off ∧ off ≤ 23 ∨ 128 ≤ off ∧ off ≤ 151)) →
      exec c s = .next (eventEnd (forward (pageWrite s off v be) s))) ∧
    (∀ (be : ByteEnables), be ≠ .both → exec (.resume be s.pins.hold) s =
      .next (eventEnd (forward (pageWrite s 20 2 be) s))) ∧
    (∀ (off : Nat) (v : Word), (128 ≤ off ∧ off ≤ 151 ∧ v ≠ 1 ∧ v ≠ 2 ∧ v ≠ 3) ∨ (off = 20 ∧ v ≠ 1 ∧ v ≠ 2) →
      exec (.processorWrite (pageAddr s off) v .both) s = .next (eventEnd (forward (pageWrite s off v .both) s)))

/-- SREADY ends the cycle of a forwarded access: a write has put its enabled bytes into the store, a read passes the
store's word to the processor; PWAIT is released. -/
def Obligations.ForwardedCompletion : Prop :=
  ∀ (s : State) (a : Access), Quiet s → s.port.cycle = some (.forwarded a) →
    (∀ w, a.write = some w →
      exec .forwardedAccessCompletion s = .next (eventEnd { ended s with store := s.store.write a.addr w })) ∧
    (a.write = none → exec .forwardedAccessCompletion s =
      .next (eventEnd { ended s with path := { s.path with pdOut := s.store.readWord a.addr } })) ∧
    (s.path.held = none → s.port.fwd = none →
      ∃ t, exec .forwardedAccessCompletion s = .next t ∧ pwait t = false)

/-- R9: the request of the issuer at the head of the waiting list joins the tail of the queue, and the issuer leaves the
list; it joins the list's tail again only with a further request. While another issuer waits no second request is placed. A
head rewrite that is placed hands its reports over, with which the Report Unit may wait (log 40). -/
def Obligations.RequestPlacement : Prop :=
  ∀ (s : State) (i : Issuer) (rest : List Issuer) (r : Req), s.resetIn = false → s.port.cycle ≠ none →
    s.port.waiting = i :: rest → s.port.queue.length < Config.queuePlaces → keptRequest s i = some r →
    ∃ t, exec .requestPlacement s = .next t ∧ t.port.cycle = s.port.cycle ∧ t.port.fwd = s.port.fwd ∧
      s.port.queue ++ [r] <+: t.port.queue ∧ t.port.queue.length ≤ Config.queuePlaces ∧ t.store = s.store ∧
      t.path = s.path ∧ t.router = s.router ∧ t.office.held = s.office.held ∧ t.pins = s.pins ∧
      (i ∉ rest → Quiet s →
        ((∀ n : LineNo, i ≠ .receiver n) ∧ i ≠ .delivery) ∨
          (∃ n : LineNo, i = .receiver n ∧ rest ≠ [] ∧ s.lines[n].rx.asm.awaiting = [] ∧ r.purpose ≠ .rxClose true) →
        t.port.waiting = rest ++ (if keptRequest t i = none then [] else [i]) ∧
          (rest ≠ [] → t.port.queue = s.port.queue ++ [r])) ∧
      (i = .delivery → i ∉ rest → s.walker.walk ≠ none →
        (rest ≠ [] → t.port.queue = s.port.queue ++ [r]) ∧
          ∃ more, t.port.waiting = rest ++ more ∧ (∀ j ∈ more, j = .delivery ∨ j = .report) ∧
            (.delivery ∈ more ↔ keptRequest t .delivery ≠ none))

/-- R10: the arbiter. While the bus is free the next cycle begins, in turn when both kinds wait; after every event out of
reset no work waits at a free bus. -/
def Obligations.ArbiterTurns : Prop :=
  (∀ s : State,
    (s.port.cycle ≠ none → startCycle s = s) ∧
    (s.port.cycle = none →
      (s.port.fwd = none → s.port.queue = [] → startCycle s = s) ∧
      (∀ a, s.port.fwd = some a → s.port.queue = [] ∨ s.port.lastServed = .internal →
        startCycle s = { s with port := { s.port with fwd := none, cycle := some (.forwarded a), lastServed := .processor } }) ∧
      (∀ r rest, s.port.queue = r :: rest → s.port.fwd = none ∨ s.port.lastServed = .processor →
        startCycle s =
          { s with port := { s.port with queue := rest, cycle := some (.internal r), lastServed := .internal } }))) ∧
  State.reset.port.lastServed = .internal ∧
  (∀ (c : Instr) (s t : State), exec c s = .next t → t.resetIn = false →
    s.resetIn = true ∨ s.port.cycle ≠ none ∨ (s.port.fwd = none ∧ s.port.queue = []) →
    t.port.cycle ≠ none ∨ (t.port.fwd = none ∧ t.port.queue = []))

/-- An internal write completes: the store holds the new value. A receiver's request counts for its abandon list, whose
head request goes to the walker with the last of them. -/
def Obligations.InternalWriteCompletion : Prop :=
  ∀ (s : State) (r : Req) (w : WriteData), Serving r s → plainWrite r.purpose = true → r.write = some w →
    (Quiet s → (∀ n : LineNo, r.issuer = .receiver n → s.lines[n].rx.abandon = []) →
      exec .internalWriteCompletion s = .next (eventEnd { ended s with store := s.store.write r.addr w })) ∧
    (∀ (n : LineNo) (f k left : Nat), s.resetIn = false → s.report.offers = [] → s.walker.walk ≠ none → r.issuer = .receiver n →
      s.lines[n].rx.abandon = [⟨f, k, left + 1⟩] →
      exec .internalWriteCompletion s = .next (eventEnd
        { ended s with
          store := s.store.write r.addr w
          lines := s.lines.set n { s.lines[n] with rx := { s.lines[n].rx with
            abandon := if left = 0 then [] else [⟨f, k, left⟩] } }
          walker := { s.walker with
            queue := s.walker.queue ++ (if left = 0 then [⟨.abandon, f, k, n.val, 0, none⟩] else []) } }))

/-! ## The office start -/

/-- R13: the start word in every office state. -/
def Obligations.StartWord : Prop :=
  (∀ (s : State) (v : Word), Accessible s →
    (s.office.state = .dormant → Room 14 s →
      ∃ t, exec (.startWord v .both) s = .next t ∧ Forwards (pageWrite s 16 v .both) t ∧
        t.office = { s.office with state := .setupRead, refusal := 0, setupNext := 14, setupWords := [] } ∧
        requests t = requests s ++ (List.range 14).map (fun k => readReq (pageAddr s k) .office .setupRead) ∧
        { t with port := s.port, office := s.office, report := s.report } = s) ∧
    (s.office.state = .setupRead ∨ s.office.state = .poolBuild →
      exec (.startWord v .both) s = .next (eventEnd (forward (pageWrite s 16 v .both) s))) ∧
    (s.office.state = .running → exec (.startWord v .both) s =
      .next (eventEnd (forward (pageWrite s 16 v .both) { s with office := { s.office with setupLocked := true } })))) ∧
  (∀ (c : Instr) (s t : State), running s = true → exec c s = .next t → t.office.held ≠ s.office.held →
    ∃ p h, c = .resetDeasserted p h)

/-- A setup read completes: the word is kept; with the fourteenth the setup is refused with the number of the failing
check, or accepted, which makes the pool and begins the initialisation walk's link writes, of which the Store Port takes as many
as it has places for: with an empty queue 64, and one more whose cycle begins at once. The last of these writes completes:
the office enters RUNNING with the setup lock set. R188 with Table 12-2: the fields of the fourteen words, bit by bit. -/
def Obligations.SetupLoad : Prop :=
  (∀ (s : State) (a : Addr) (ws : List Word) (h : HeldSetup) (links : List Req), Quiet s → s.office.state = .setupRead →
     Serving (readReq a .office .setupRead) s → ws = s.office.setupWords ++ [s.store.readWord a] → h = parseSetup ws →
     links = (List.range h.poolBlocks).map (fun b =>
       wordReq (BitVec.ofNat 18 (h.poolBase * 32 + b * 32))
         (if b + 1 < h.poolBlocks then BitVec.ofNat 16 (b + 1) else 65535) .walker (.poolLink (b + 1 == h.poolBlocks))) →
     (ws.length < 14 → exec .setupReadCompletion s =
       .next (eventEnd { ended s with office := { s.office with setupWords := ws } })) ∧
     (ws.length = 14 → ∀ k, setupRefusal (pageBase s).toNat h = k + 1 → exec .setupReadCompletion s =
       .next (eventEnd { ended s with
         office := { s.office with setupWords := ws, state := .dormant, refusal := k + 1 } })) ∧
     (ws.length = 14 → setupRefusal (pageBase s).toNat h = 0 → s.walker.links = [] →
       ∃ t w k, exec .setupReadCompletion s = .next t ∧
         t.office = { s.office with setupWords := ws, state := .poolBuild, held := h, refusal := 0 } ∧
         t.pool = { map := List.replicate h.poolBlocks .free, free := List.range h.poolBlocks, starved := [] } ∧
         t.walker.walk = some w ∧ w.req.kind = .init ∧ w.todo = links.drop k ∧
         requests t = s.port.queue ++ links.take k ∧
         (s.port.queue = [] → s.port.waiting = [] →
           k = min h.poolBlocks (if s.port.fwd = none ∨ s.port.lastServed = .processor then 65 else 64)) ∧ t.store = s.store ∧ t.lines = s.lines ∧ t.du = s.du ∧
         t.router = s.router)) ∧
  (∀ (s : State) (a : Addr) (v : Word), s.resetIn = false → s.report.offers = [] → s.walker.queue = [] → s.office.state = .poolBuild →
     Serving (wordReq a v .walker (.poolLink true)) s →
     exec .poolBuildEnd s = .next (eventEnd { ended s with
       store := s.store.write a ⟨v, .both⟩
       walker := { s.walker with walk := none }
       office := { s.office with state := .running, setupLock := true, clock := 0, divider := 0, serial := 0 } })) ∧
  (∀ w0 w1 w2 w3 w4 w5 w6 w7 w8 w9 w10 w11 w12 w13 : Word,
     parseSetup [w0, w1, w2, w3, w4, w5, w6, w7, w8, w9, w10, w11, w12, w13] =
       { poolBase := (w0.extractLsb' 0 13).toNat
         poolBlocks := (w1.extractLsb' 0 12).toNat
         ringBase := (w2.extractLsb' 0 12).toNat
         ringCode := (w3.extractLsb' 0 3).toNat
         ltrs := w4.extractLsb' 0 5, figs := w4.extractLsb' 5 5, space := w4.extractLsb' 10 5
         cr := w5.extractLsb' 0 5, lf := w5.extractLsb' 5 5, substitute := w5.extractLsb' 10 5
         som := [w6.extractLsb' 0 5, w6.extractLsb' 5 5, w6.extractLsb' 10 5, w7.extractLsb' 0 5]
         eom := [w7.extractLsb' 5 5, w7.extractLsb' 10 5, w8.extractLsb' 0 5, w8.extractLsb' 5 5]
         repeatNotice := [w8.extractLsb' 10 5, w9.extractLsb' 0 5, w9.extractLsb' 5 5, w9.extractLsb' 10 5]
         precedence := [w10.extractLsb' 0 5, w10.extractLsb' 5 5, w10.extractLsb' 10 5, w11.extractLsb' 0 5]
         answerTimeout := (w11.extractLsb' 5 6).toNat
         guardTime := (w11.extractLsb' 11 4).toNat
         ageing := (w12.extractLsb' 0 8).toNat
         retry := (w12.extractLsb' 8 8).toNat
         idleTimeout := (w13.extractLsb' 0 8).toNat })

/-- R15: a setup passes exactly when none of the eight conditions of Table 1-7 holds, and else is refused with the
number of the first that holds. Two ranges share an address when some address lies in both. -/
def Obligations.SetupChecks : Prop :=
  ∀ (page : Nat) (h : HeldSetup) (bad : Nat → Prop),
    (∀ i, bad i ↔
      (i = 1 ∧ (h.poolBlocks < 16 ∨ 2048 < h.poolBlocks)) ∨
      (i = 2 ∧ 262144 < (h.poolBase + h.poolBlocks) * 32) ∨
      (i = 3 ∧ (6 < h.ringCode ∨ 262144 < h.ringBase * 64 + 64 * 2 ^ h.ringCode)) ∨
      (i = 4 ∧ ∃ a,
        (h.poolBase * 32 ≤ a ∧ a < h.poolBase * 32 + h.poolBlocks * 32 ∧
          h.ringBase * 64 ≤ a ∧ a < h.ringBase * 64 + 64 * 2 ^ h.ringCode) ∨
        (h.poolBase * 32 ≤ a ∧ a < h.poolBase * 32 + h.poolBlocks * 32 ∧ page ≤ a ∧ a < page + 1024) ∨
        (h.ringBase * 64 ≤ a ∧ a < h.ringBase * 64 + 64 * 2 ^ h.ringCode ∧ page ≤ a ∧ a < page + 1024)) ∨
      (i = 5 ∧ h.som = h.eom) ∨
      (i = 6 ∧ ¬ h.precedence.Nodup) ∨
      (i = 7 ∧ (h.answerTimeout = 0 ∨ h.guardTime = 0)) ∨
      (i = 8 ∧ (h.retry = 0 ∨ h.idleTimeout < 8))) →
    (setupRefusal page h = 0 ↔ ∀ i, ¬ bad i) ∧
    (∀ k, setupRefusal page h = k + 1 ↔ bad (k + 1) ∧ ∀ i, i < k + 1 → ¬ bad i)

/-! ## The block pool -/

/-- R24: a claim takes the head block, HELD, and drops the link writes into it that are not placed; an empty list
answers NONE; before RUNNING the read is forwarded. -/
def Obligations.ClaimWord : Prop :=
  ∀ s : State, Accessible s →
    (running s = true → ∀ (b : Nat) (rest : List Nat), s.pool.free = b :: rest →
      ∃ t, exec .claim s = .next t ∧
        t.pool = { s.pool with map := s.pool.map.set b .held, free := rest } ∧
        t.path = { s.path with pdOut := BitVec.ofNat 16 b } ∧
        t.walker.links = s.walker.links.filter (fun l => l.target != b) ∧
        t.walker.walk = s.walker.walk ∧ t.walker.queue = s.walker.queue ∧ requests t = requests s ∧ pwait t = false ∧
        { t with pool := s.pool, path := s.path, walker := s.walker, port := s.port, report := s.report } = s) ∧
    (running s = true → s.pool.free = [] →
      exec .claim s = .next (eventEnd { s with path := { s.path with pdOut := 65535 } })) ∧
    (running s = false → exec .claim s = .next (eventEnd (forward ⟨pageAddr s 34, none⟩ s)))

/-- R26, R27: the return word gives a HELD block back, to the head of the starved list or to the free list's tail with
a link write into the tail before it; a block not HELD is reported. In each case the write is forwarded. -/
def Obligations.ReturnWord : Prop :=
  ∀ (s : State) (v : Word), Accessible s → running s = true →
    (blockState s v.toNat = some .held → s.pool.starved = [] →
      ∃ t, exec (.returnWord v .both) s = .next t ∧ Forwards (pageWrite s 17 v .both) t ∧
        t.pool = { s.pool with map := s.pool.map.set v.toNat .free, free := s.pool.free ++ [v.toNat] } ∧
        { t with pool := s.pool, port := s.port, walker := s.walker, report := s.report } = s ∧
        (∀ x, s.pool.free.getLast? = some x → s.walker.links = [] → s.walker.walk = none → Room 1 s →
          requests t = requests s ++ [wordReq (blockWord s x 0) (BitVec.ofNat 16 v.toNat) .walker .freeLink] ∧
          t.walker.links = []) ∧
        (∀ x, s.pool.free.getLast? = some x → Issuer.walker ∈ s.port.waiting →
          t.walker = { s.walker with links := s.walker.links ++ [⟨x, v.toNat⟩] }) ∧
        (s.pool.free = [] → t.walker = s.walker)) ∧
    (blockState s v.toNat = some .held → ∀ (n : LineNo) (rest : List LineNo) (p : Nat), s.pool.starved = n :: rest →
      n ∉ rest → s.lines[n].rx.asm.awaiting = [] → s.lines[n].rx.asm.current = some p → s.lines[n].rx.unplaced = none →
      s.lines[n].rx.state = .text → Room 1 s →
      ∃ t, exec (.returnWord v .both) s = .next t ∧ Forwards (pageWrite s 17 v .both) t ∧
        t.pool = { s.pool with map := s.pool.map.set v.toNat .owned, starved := rest } ∧
        requests t = requests s ++ [wordReq (blockWord s p 0) (BitVec.ofNat 16 v.toNat) (.receiver n) .rxLink] ∧
        t.lines[n].rx.asm.current = some v.toNat ∧
        t.lines[n].rx.asm.blockCount = s.lines[n].rx.asm.blockCount + 1 ∧
        t.walker = s.walker ∧ t.du = s.du ∧ t.office = s.office) ∧
    (∀ cause, (blockState s v.toNat = some .free ∧ cause = 3) ∨ (blockState s v.toNat = some .owned ∧ cause = 4) ∨
        (blockState s v.toNat = none ∧ cause = 5) →
      ∃ t, exec (.returnWord v .both) s = .next t ∧ Forwards (pageWrite s 17 v .both) t ∧
        Offers { plainReport .guardViolation 31 v 0 s.office.clock with qualifier := cause } s t)

/-- R29, R30: the guard's verdict on a write into the pool region, whatever its byte enables. -/
def Obligations.PoolWriteVerdict : Prop :=
  ∀ (s : State) (addr : Addr) (v : Word) (be : ByteEnables) (b : Nat), Accessible s → pageOffset s addr = none →
    s.office.held.poolBase * 32 ≤ addr.toNat →
    addr.toNat < s.office.held.poolBase * 32 + s.office.held.poolBlocks * 32 →
    b = (addr.toNat - s.office.held.poolBase * 32) / 32 →
    (running s = true → blockState s b = some .held →
      exec (.poolWrite addr v be) s = .next (eventEnd (forward ⟨addr, some ⟨v, be⟩⟩ s))) ∧
    (running s = true → ∀ cause, (blockState s b = some .free ∧ cause = 1) ∨ (blockState s b = some .owned ∧ cause = 2) →
      ∃ t, exec (.poolWrite addr v be) s = .next t ∧ pwait t = false ∧
        Offers { plainReport .guardViolation 31 (BitVec.ofNat 16 b) (addr.setWidth 16) s.office.clock with
          qualifier := cause } s t) ∧
    (s.office.state = .poolBuild → exec (.poolWrite addr v be) s = .next (eventEnd s))

/-! ## Walks and the post queue -/

/-- A counted walk's link read completes: a hand-over walk marks the block HELD and reads the next block's link; a walk
whose read names no block of the pool ends with the block it stands on, a release walk with MESSAGE RELEASED and the
transit entry freed, an abandon walk with MESSAGE ABANDONED. Where the block reached is the last of the recorded count it
is acted on without a link read, and the walk ends with MESSAGE HELD, with MESSAGE RETURNED for reason 0, with MESSAGE
RELEASED or with MESSAGE ABANDONED. The head write of a hand-over walk completes: a chain of one block is then HELD and the
walk ends with MESSAGE HELD or, for reason 0, MESSAGE RETURNED; a longer chain waits for its first link read. -/
def Obligations.CountedWalks : Prop :=
  (∀ (s : State) (a : Addr) (v : Word) (w : Walk), s.resetIn = false → s.report.offers = [] → s.walker.walk = some w →
     Serving (readReq a .walker .walkLink) s → v = s.store.readWord a →
     (w.req.kind = .handOver → w.todo = [] → v.toNat < s.office.held.poolBlocks → v.toNat ≠ w.block →
       blockState s v.toNat = some .owned → w.acted + 2 < w.req.count → s.walker.links = [] → Room 1 s →
       ∃ t, exec .linkReadCompletion s = .next t ∧
         t.pool = { s.pool with map := s.pool.map.set w.block .held } ∧
         t.walker = { s.walker with walk := some { w with block := v.toNat, acted := w.acted + 1 }, offered := none } ∧
         requests t = s.port.queue ++ [readReq (blockWord s v.toNat 0) .walker .walkLink] ∧
         { t with pool := s.pool, walker := s.walker, port := s.port, report := s.report } = s) ∧
     (∀ k : TransitNo, w.req.kind = .release → w.req.transit = some k → s.office.held.poolBlocks ≤ v.toNat →
       s.pool.starved = [] → s.pool.free = [] → s.walker.queue = [] →
       ∃ t, exec .linkReadCompletion s = .next t ∧
         Offers (plainReport .messageReleased w.req.origin (BitVec.ofNat 16 w.req.first) (BitVec.ofNat 16 (w.acted + 1))
             s.office.clock)
           { ended s with
             pool := { s.pool with map := s.pool.map.set w.block .free, free := [w.block] }
             walker := { s.walker with walk := none }
             du := { s.du with transit := s.du.transit.set k { s.du.transit[k] with state := .free } } } t) ∧
     (w.req.kind = .abandon → s.office.held.poolBlocks ≤ v.toNat →
       s.pool.starved = [] → s.pool.free = [] → s.walker.queue = [] →
       ∃ t, exec .linkReadCompletion s = .next t ∧
         Offers (plainReport .messageAbandoned w.req.origin (BitVec.ofNat 16 w.req.first) (BitVec.ofNat 16 (w.acted + 1))
             s.office.clock)
           { ended s with
             pool := { s.pool with map := s.pool.map.set w.block .free, free := [w.block] }
             walker := { s.walker with walk := none } } t) ∧
     (v.toNat < s.office.held.poolBlocks → v.toNat ≠ w.block → blockState s v.toNat = some .owned →
       w.acted + 2 = w.req.count → s.walker.queue = [] →
       (w.req.kind = .handOver → w.req.reason ≠ 0 →
         ∃ t, exec .linkReadCompletion s = .next t ∧
           Offers (plainReport .messageHeld w.req.origin (BitVec.ofNat 16 w.req.first) (BitVec.ofNat 16 w.req.reason)
               s.office.clock)
             { ended s with
               pool := { s.pool with map := (s.pool.map.set w.block .held).set v.toNat .held }
               walker := { s.walker with walk := none } } t) ∧
       (∀ k : TransitNo, w.req.kind = .handOver → w.req.reason = 0 → w.req.transit = some k →
         ∃ t, exec .linkReadCompletion s = .next t ∧
           Offers (plainReport .messageReturned w.req.origin (BitVec.ofNat 16 w.req.first) (BitVec.ofNat 16 w.req.count)
               s.office.clock)
             { ended s with
               pool := { s.pool with map := (s.pool.map.set w.block .held).set v.toNat .held }
               walker := { s.walker with walk := none }
               du := { s.du with transit := s.du.transit.set k { s.du.transit[k] with state := .free } } } t) ∧
       (∀ (kind : ReportKind) (transit : Vector Transit 128), w.todo = [] → s.walker.links = [] → s.pool.starved = [] →
         s.pool.free = [] → Room 5 s → RingRoom 1 s →
         (w.req.kind = .abandon ∧ kind = .messageAbandoned ∧ transit = s.du.transit) ∨
           (w.req.kind = .release ∧ kind = .messageReleased ∧ ∃ k : TransitNo, w.req.transit = some k ∧
             transit = s.du.transit.set k { s.du.transit[k] with state := .free }) →
         ∃ t, exec .linkReadCompletion s = .next t ∧
           SamePart { s with
             pool := { s.pool with
               map := (s.pool.map.set w.block .free).set v.toNat .free, free := [w.block, v.toNat] }
             walker := { s.walker with walk := none, offered := none }
             du := { s.du with transit := transit } } t ∧
           t.report.fill = s.report.fill + 1 ∧
           requests t = s.port.queue ++
             wordReq (blockWord s w.block 0) v .walker .freeLink ::
               reportWords s s.report.fill (plainReport kind w.req.origin (BitVec.ofNat 16 w.req.first)
                 (BitVec.ofNat 16 w.req.count) s.office.clock)))) ∧
  (∀ (s : State) (a : Addr) (b : Byte) (w : Walk), s.resetIn = false → s.report.offers = [] → s.walker.walk = some w →
     Serving (byteReq a true b .walker .handOverHead) s →
     (w.req.count ≤ 1 → w.req.kind = .handOver → w.req.reason ≠ 0 → s.walker.queue = [] →
       ∃ t, exec .handOverHeadWriteCompletion s = .next t ∧
         Offers (plainReport .messageHeld w.req.origin (BitVec.ofNat 16 w.req.first) (BitVec.ofNat 16 w.req.reason)
             s.office.clock)
           { ended s with
             store := s.store.write a ⟨b ++ b, ⟨true, false⟩⟩
             pool := { s.pool with map := s.pool.map.set w.block .held }
             walker := { s.walker with walk := none } } t) ∧
     (∀ k : TransitNo, w.req.count ≤ 1 → w.req.kind = .handOver → w.req.reason = 0 → w.req.transit = some k →
       w.acted = 0 → s.walker.queue = [] →
       ∃ t, exec .handOverHeadWriteCompletion s = .next t ∧
         Offers (plainReport .messageReturned w.req.origin (BitVec.ofNat 16 w.req.first) 1 s.office.clock)
           { ended s with
             store := s.store.write a ⟨b ++ b, ⟨true, false⟩⟩
             pool := { s.pool with map := s.pool.map.set w.block .held }
             walker := { s.walker with walk := none }
             du := { s.du with transit := s.du.transit.set k { s.du.transit[k] with state := .free } } } t) ∧
     (1 < w.req.count → exec .handOverHeadWriteCompletion s =
       .next (eventEnd { ended s with store := s.store.write a ⟨b ++ b, ⟨true, false⟩⟩ })))

/-- R38 to R40: a posting walk's link read. NONE leads to the reads of head words 1 to 14; a HELD block is marked and its
link read; the three checks fail the walk in their order, which gives every marked block back. R172: the refused post
leaves the post queue and the next one is given to the Chain Walker. -/
def Obligations.PostingLinkReadCompletion : Prop :=
  ∀ (s : State) (a : Addr) (v : Word) (w : Walk), s.resetIn = false → s.report.offers = [] → s.walker.walk = some w →
    Serving (readReq a .walker .postLink) s → v = s.store.readWord a →
    (v = 65535 → s.walker.links = [] → Room 14 s →
      ∃ t, exec .postingLinkReadCompletion s = .next t ∧
        t.walker = { s.walker with walk := some { w with todo := [] }, offered := none } ∧
        requests t = s.port.queue ++
          (List.range 14).map (fun i => readReq (blockWord s w.req.first (i + 1)) .walker .postHeadRead) ∧
        { t with walker := s.walker, port := s.port, report := s.report } = s) ∧
    (v ≠ 65535 → v.toNat < s.office.held.poolBlocks → w.marked.length < 64 → blockState s v.toNat = some .held →
      s.walker.links = [] → Room 1 s →
      ∃ t, exec .postingLinkReadCompletion s = .next t ∧
        t.pool = { s.pool with map := s.pool.map.set v.toNat .owned } ∧
        t.walker = { s.walker with walk := some { w with block := v.toNat, marked := w.marked ++ [v.toNat], todo := [] },
                                   offered := none } ∧
        requests t = s.port.queue ++ [readReq (blockWord s v.toNat 0) .walker .postLink] ∧
        { t with pool := s.pool, walker := s.walker, port := s.port, report := s.report } = s) ∧
    (∀ (reason : Nat) (p : Word) (rest : List Word) (u : State), v ≠ 65535 → s.post = p :: rest →
      (s.office.held.poolBlocks ≤ v.toNat ∧ reason = 2) ∨
        (v.toNat < s.office.held.poolBlocks ∧ 64 ≤ w.marked.length ∧ reason = 3) ∨
        (v.toNat < s.office.held.poolBlocks ∧ w.marked.length < 64 ∧ blockState s v.toNat ≠ some .held ∧ reason = 1) →
      u = offerReport
        (plainReport .postRefused 31 (BitVec.ofNat 16 w.req.first) (BitVec.ofNat 16 reason) s.office.clock)
        { ended s with pool := { s.pool with map := w.marked.foldl (fun m b => m.set b .held) s.pool.map } } →
      exec .postingLinkReadCompletion s = .next (settle { u with
        walker := { s.walker with walk := none, queue := s.walker.queue ++ nextPost rest }
        post := rest }) ∧
      (rest = [] → s.walker.queue = [] → ∃ t, exec .postingLinkReadCompletion s = .next t ∧
        Offers (plainReport .postRefused 31 (BitVec.ofNat 16 w.req.first) (BitVec.ofNat 16 reason) s.office.clock)
          { ended s with
            pool := { s.pool with map := w.marked.foldl (fun m b => m.set b .held) s.pool.map }
            walker := { s.walker with walk := none }
            post := [] } t))

/-- A posting walk's head read completes: the word is kept; the last validates the head. A good head takes a serial and
the five head writes are offered, with the fields of Tables 10-2 and 12-5 bit by bit; a bad one fails the walk with the
reason of Table 2-5, and the next post is given to the Chain Walker (R172). -/
def Obligations.PostingHeadReadCompletion : Prop :=
  ∀ (s : State) (a : Addr) (w w1 : Walk), s.resetIn = false → s.report.offers = [] → s.walker.walk = some w →
    Serving (readReq a .walker .postHeadRead) s → w1 = { w with words := w.words ++ [s.store.readWord a] } →
    (w1.words.length < 14 → exec .postingHeadReadCompletion s =
      .next (eventEnd { ended s with walker := { s.walker with walk := some w1 } })) ∧
    (14 ≤ w1.words.length → (w1.head 3).toNat % 8 ≤ 3 → 1 ≤ w1.destCount → w1.destCount ≤ 8 →
      ((w1.head 3).getLsbD 14 = true → ∀ v ∈ w1.dests, v.toNat ≤ 23) → s.walker.links = [] → Room 5 s →
      ∃ t, exec .postingHeadReadCompletion s = .next t ∧
        t.office = { s.office with serial := s.office.serial + 1 } ∧
        t.walker = { s.walker with walk := some { w1 with serial := s.office.serial, todo := [] }, offered := none } ∧
        requests t = s.port.queue ++
          [wordReq (blockWord s w.req.first 2) (0#8 ++ BitVec.ofNat 8 w.marked.length) .walker (.postHeadWrite false),
           wordReq (blockWord s w.req.first 3)
             (0#1 ++ BitVec.ofBool ((w1.head 3).getLsbD 14) ++ BitVec.ofBool ((w1.head 3).getLsbD 13) ++ 0#5 ++ 31#5 ++
               (w1.head 3).extractLsb' 0 3) .walker (.postHeadWrite false),
           wordReq (blockWord s w.req.first 5) s.office.serial .walker (.postHeadWrite false),
           wordReq (blockWord s w.req.first 6) (0#8 ++ (w1.head 6).extractLsb' 0 8) .walker (.postHeadWrite false),
           wordReq (blockWord s w.req.first 15) (s.office.clock.extractLsb' 0 16) .walker (.postHeadWrite true)] ∧
        { t with office := s.office, walker := s.walker, port := s.port, report := s.report } = s) ∧
    (∀ (reason : Nat) (p : Word) (rest : List Word) (u : State), 14 ≤ w1.words.length → s.post = p :: rest →
      (3 < (w1.head 3).toNat % 8 ∧ reason = 4) ∨
        ((w1.head 3).toNat % 8 ≤ 3 ∧ (w1.destCount = 0 ∨ 8 < w1.destCount) ∧ reason = 5) ∨
        ((w1.head 3).toNat % 8 ≤ 3 ∧ 1 ≤ w1.destCount ∧ w1.destCount ≤ 8 ∧ (w1.head 3).getLsbD 14 = true ∧
          (∃ v ∈ w1.dests, 23 < v.toNat) ∧ reason = 6) →
      u = offerReport
        (plainReport .postRefused 31 (BitVec.ofNat 16 w.req.first) (BitVec.ofNat 16 reason) s.office.clock)
        { ended s with pool := { s.pool with map := w.marked.foldl (fun m b => m.set b .held) s.pool.map } } →
      exec .postingHeadReadCompletion s = .next (settle { u with
        walker := { s.walker with walk := none, queue := s.walker.queue ++ nextPost rest }
        post := rest }) ∧
      (rest = [] → s.walker.queue = [] → ∃ t, exec .postingHeadReadCompletion s = .next t ∧
        Offers (plainReport .postRefused 31 (BitVec.ofNat 16 w.req.first) (BitVec.ofNat 16 reason) s.office.clock)
          { ended s with
            pool := { s.pool with map := w.marked.foldl (fun m b => m.set b .held) s.pool.map }
            walker := { s.walker with walk := none }
            post := [] } t))

/-- The write of head word 15 completes: the walk ends, the message is routed at this event with the record of R175, the
post leaves its queue, and the next one is given to the Chain Walker (R172). That the routing comes before the giving is the
model's reading (log 23). -/
def Obligations.PostingHeadWriteCompletion : Prop :=
  ∀ (s u : State) (a : Addr) (v p : Word) (rest : List Word) (w : Walk), s.resetIn = false → s.walker.walk = some w →
    s.post = p :: rest → Serving (wordReq a v .walker (.postHeadWrite true)) s →
    u = routeMessage
      { first := w.req.first, blockCount := w.marked.length, cls := (w.head 3).toNat % 8, origin := 31,
        originStation := w.head 4, serial := w.serial, flags := ⟨false, false, false, false, false⟩,
        directed := (w.head 3).getLsbD 14, dests := w.dests, autoRelease := (w.head 3).getLsbD 13 }
      { ended s with store := s.store.write a ⟨v, .both⟩, walker := { s.walker with walk := none } } →
    exec .postingHeadWriteCompletion s = .next (settle { u with
      walker := { u.walker with queue := u.walker.queue ++ nextPost rest }
      post := rest })

/-- R171: the post word while RUNNING. A duplicate is refused, then a post to a full queue; else the value joins the
tail, and to an empty queue it is given to the Chain Walker at once. -/
def Obligations.PostWord : Prop :=
  ∀ (s : State) (v : Word), s.resetIn = false → pwait s = false → running s = true →
    (∀ reason, (v ∈ s.post ∧ reason = 8) ∨ (v ∉ s.post ∧ 4 ≤ s.post.length ∧ reason = 7) → Quiet s →
      ∃ t, exec (.postWord v .both) s = .next t ∧ Forwards (pageWrite s 18 v .both) t ∧
        Offers (plainReport .postRefused 31 v (BitVec.ofNat 16 reason) s.office.clock) s t) ∧
    (v ∉ s.post → s.post.length < 4 → exec (.postWord v .both) s =
      .next (settle (forward (pageWrite s 18 v .both)
        { s with
          post := s.post ++ [v]
          walker := { s.walker with
            queue := s.walker.queue ++ (if s.post = [] then [⟨.posting, v.toNat, 0, 31, 0, none⟩] else []) } })))

/-! ## Samplers and receivers -/

/-- R62, R143: a completed character joins the FIFO with the pending gap, or is lost, discarded or an echo. -/
def Obligations.CharacterCompletion : Prop :=
  ∀ (s : State) (n : LineNo) (c : Code) (noise framing lastMark : Bool) (l : LineUnit), Quiet s →
    s.lines[n].tx.state ≠ .off → s.lines[n].tx.state ≠ .answerWait → s.lines[n].settingsPending = false →
    l = { s.lines[n] with
      sampler := { state := if lastMark then .waitStart else .waitMark, sample := 53, code := c, noise := noise,
                   framing := framing } } →
    (echoes l = true → exec (.characterCompletion n c noise framing lastMark) s = .next (eventEnd
      { s with lines := s.lines.set n { l with rx := { l.rx with pendingGap := true } } })) ∧
    (echoes l = false → 8 ≤ l.rx.fifo.length → exec (.characterCompletion n c noise framing lastMark) s = .next (eventEnd
      { s with lines := s.lines.set n { l with overrun := min 255 (l.overrun + 1), rx := { l.rx with pendingGap := true } } })) ∧
    (echoes l = false → l.rx.fifo.length < 8 → framing = true →
      exec (.characterCompletion n c noise framing lastMark) s = .next (eventEnd
        { s with lines := s.lines.set n { l with framing := min 255 (l.framing + 1), rx := { l.rx with pendingGap := true } } })) ∧
    (echoes l = false → l.rx.fifo.length < 8 → framing = false →
      exec (.characterCompletion n c noise framing lastMark) s = .next (eventEnd
        { s with lines := s.lines.set n { l with rx := { l.rx with
              fifo := l.rx.fifo ++ [⟨c, noise, l.rx.pendingGap⟩], pendingGap := false } } }))

/-- R152, R153: the answer check. Framing empties the window, LTRS and FIGS are passed over, another code joins a window
of at most two; the called station's code is an answer match: the member's answered flag is set, and a further member is
called, whose LTRS begins at the next tick, or with the last member called the text begins. -/
def Obligations.AnswerCheck : Prop :=
  ∀ (s e : State) (n : LineNo) (c : Code) (noise framing lastMark : Bool) (h : Hand) (pos : Nat) (m : Member)
    (win : List Code),
    Quiet s → s.lines[n].tx.state = .answerWait → s.lines[n].settingsPending = false → s.lines[n].tx.hand = some h →
    s.lines[n].tx.callPos = some pos → h.callSet[pos - 1]? = some m →
    e = updLine n (fun l => receiveCharacter c noise framing (completeSampler c noise framing lastMark l)) s →
    win = (s.lines[n].tx.answerWindow ++ [c]).drop ((s.lines[n].tx.answerWindow ++ [c]).length - 2) →
    s.lines[n].tx.answerWindow.length ≤ 2 →
    (framing = true → exec (.characterCompletion n c noise framing lastMark) s =
      .next (eventEnd (updTx n (fun t => { t with answerWindow := [] }) e))) ∧
    (framing = false → c = s.office.held.ltrs ∨ c = s.office.held.figs →
      exec (.characterCompletion n c noise framing lastMark) s = .next (eventEnd e)) ∧
    (framing = false → c ≠ s.office.held.ltrs → c ≠ s.office.held.figs →
      win ≠ [m.callCode.extractLsb' 5 5, m.callCode.extractLsb' 0 5] →
      exec (.characterCompletion n c noise framing lastMark) s =
        .next (eventEnd (updTx n (fun t => { t with answerWindow := win }) e))) ∧
    (framing = false → c ≠ s.office.held.ltrs → c ≠ s.office.held.figs →
      win = [m.callCode.extractLsb' 5 5, m.callCode.extractLsb' 0 5] → h.callSet = [m] → pos = 1 →
      s.du.entries[h.number].callSet = [m] →
      ∃ t, exec (.characterCompletion n c noise framing lastMark) s = .next t ∧
        t.lines[n].tx.state = .sending ∧ t.lines[n].tx.textBegun = true ∧ t.lines[n].tx.answerCount = none ∧
        t.lines[n].tx.callPos = none ∧ t.du.entries[h.number].callSet = [{ m with answered := true }] ∧
        t.store = s.store ∧ t.office = s.office ∧ t.pool = s.pool ∧ t.walker = s.walker) ∧
    (∀ (next x : Member) (front back : List Member), framing = false → c ≠ s.office.held.ltrs →
      c ≠ s.office.held.figs → win = [m.callCode.extractLsb' 5 5, m.callCode.extractLsb' 0 5] →
      h.callSet[pos]? = some next → s.du.entries[h.number].callSet = front ++ x :: back → front.length = pos - 1 →
      exec (.characterCompletion n c noise framing lastMark) s = .next (eventEnd
        { updTx n (fun t => { t with
            state := .calling, callPos := some (pos + 1), answerCount := none, answerWindow := [],
            opening := [s.office.held.ltrs, next.callCode.extractLsb' 5 5, next.callCode.extractLsb' 0 5] }) e with
          du := { s.du with entries := s.du.entries.set h.number { s.du.entries[h.number] with
            callSet := front ++ { x with answered := true } :: back } } }))

/-- R65, R66: a take in HUNTING. The code joins the window; the SOM pattern starts a message, with its serial and time
and the four SOM codes, stored at once in a first block or kept while the receiver is starved. -/
def Obligations.TakeHunting : Prop :=
  ∀ (s : State) (n : LineNo) (e : FifoEntry) (rest : List FifoEntry) (win : List Code), Quiet s →
    n ∉ s.pool.starved → s.lines[n].rx.state = .hunting → s.lines[n].rx.asm.awaiting = [] →
    s.lines[n].rx.unplaced = none → s.lines[n].rx.fifo = e :: rest → e.gapBefore = false →
    s.lines[n].rx.window.length ≤ 4 →
    win = (s.lines[n].rx.window ++ [e.code]).drop ((s.lines[n].rx.window ++ [e.code]).length - 4) →
    (win ≠ s.office.held.som → exec (.receiverTake n) s = .next (eventEnd
      { s with lines := s.lines.set n { s.lines[n] with rx := { s.lines[n].rx with
          fifo := rest, noise := e.noise, closePoint := s.lines[n].rx.closePoint - 1, window := win } } })) ∧
    (win = s.office.held.som → s.pool.free = [] → exec (.receiverTake n) s = .next (eventEnd
      { s with
        office := { s.office with serial := s.office.serial + 1 }
        pool := { s.pool with starved := s.pool.starved ++ [n] }
        lines := s.lines.set n { s.lines[n] with rx := { s.lines[n].rx with
          state := .header, fifo := rest, noise := e.noise, closePoint := s.lines[n].rx.closePoint - 1, window := [],
          idleTimer := some 0, closeNext := 0,
          asm := { Assembly.reset with
            serial := s.office.serial, received := s.office.clock,
            awaiting := s.office.held.som.map (fun c => c.setWidth 8) } } } })) ∧
    (∀ (b : Nat) (free : List Nat) (c0 c1 c2 c3 : Code), win = s.office.held.som →
      s.office.held.som = [c0, c1, c2, c3] → s.pool.free = b :: free → s.walker.offered = none → Room 4 s →
      ∃ t, exec (.receiverTake n) s = .next t ∧
        t.office = { s.office with serial := s.office.serial + 1 } ∧
        t.pool = { s.pool with map := s.pool.map.set b .owned, free := free } ∧
        t.lines[n].rx.state = .header ∧ t.lines[n].rx.fifo = rest ∧ t.lines[n].rx.window = [] ∧
        t.lines[n].rx.asm = { Assembly.reset with
          serial := s.office.serial, received := s.office.clock, first := some b, current := some b, blockCount := 1,
          storedLength := 4 } ∧
        requests t = requests s ++
          [byteReq (blockWord s b 16) false (c0.setWidth 8) (.receiver n) .rxByte,
           byteReq (blockWord s b 16) true (c1.setWidth 8) (.receiver n) .rxByte,
           byteReq (blockWord s b 17) false (c2.setWidth 8) (.receiver n) .rxByte,
           byteReq (blockWord s b 17) true (c3.setWidth 8) (.receiver n) .rxByte] ∧
        t.store = s.store ∧ t.du = s.du ∧ t.router = s.router)

/-- R67, R73 to R77: a take in TEXT stores the code as one byte write at the text position, or under truncation discards
it; the EOM pattern closes the message. Below truncation its code is stored, the link word NONE and the fifteen head words
follow, and with the last of them placed the message is handed to the Router, or with a header fault to a hand-over walk
with reason 1, and the receiver hunts. Where the text position needs a further block (R25, R67, R68) it is the head of the
free list: its number is written into the chain's last block and then the byte into it; while that link write waits for the
Store Port the character stays in the FIFO (log 20), and with no FREE block the receiver is starved. -/
def Obligations.TakeText : Prop :=
  (∀ (s : State) (n : LineNo) (e : FifoEntry) (rest : List FifoEntry) (win : List Code) (b : Nat), Quiet s →
     n ∉ s.pool.starved → s.lines[n].rx.state = .text → s.lines[n].rx.asm.awaiting = [] →
     s.lines[n].rx.unplaced = none → s.lines[n].rx.fifo = e :: rest → e.gapBefore = false →
     s.lines[n].rx.idleClose = false → s.lines[n].rx.window.length ≤ 4 → s.lines[n].rx.asm.current = some b →
     chainIndex s.lines[n].rx.asm.storedLength < s.lines[n].rx.asm.blockCount →
     win = (s.lines[n].rx.window ++ [e.code]).drop ((s.lines[n].rx.window ++ [e.code]).length - 4) →
     (win ≠ s.office.held.eom → s.lines[n].rx.asm.storedLength < 3934 → Room 1 s →
       ∃ t, exec (.receiverTake n) s = .next t ∧
         SamePart { s with lines := s.lines.set n { s.lines[n] with rx := { s.lines[n].rx with
             fifo := rest, noise := e.noise, closePoint := s.lines[n].rx.closePoint - 1, window := win,
             asm := { s.lines[n].rx.asm with storedLength := s.lines[n].rx.asm.storedLength + 1 } } } } t ∧
         requests t = requests s ++
           [byteReq (blockWord s b (textWord s.lines[n].rx.asm.storedLength))
             (s.lines[n].rx.asm.storedLength % 2 == 1) (e.code.setWidth 8) (.receiver n) .rxByte]) ∧
     (win ≠ s.office.held.eom → 3934 ≤ s.lines[n].rx.asm.storedLength → exec (.receiverTake n) s = .next (eventEnd
       { s with lines := s.lines.set n { s.lines[n] with rx := { s.lines[n].rx with
           fifo := rest, noise := e.noise, closePoint := s.lines[n].rx.closePoint - 1, window := win,
           asm := { s.lines[n].rx.asm with truncated := true, mutilated := true } } } })) ∧
     (∀ c0 cs, win = s.office.held.eom → s.office.held.eom = c0 :: cs → s.lines[n].rx.asm.storedLength = 3934 →
       s.port.waiting ≠ [] → Issuer.receiver n ∉ s.port.waiting →
       ∃ t, exec (.receiverTake n) s = .next t ∧ t.lines[n].rx.state = .closing ∧ t.lines[n].rx.window = [] ∧
         t.lines[n].rx.idleTimer = none ∧ t.lines[n].rx.asm.complete = true ∧ t.lines[n].rx.asm.autoRelease = true ∧
         t.lines[n].rx.asm.truncated = true ∧ t.lines[n].rx.asm.mutilated = true ∧
         t.lines[n].rx.asm.awaiting = cs.map (fun c => c.setWidth 8) ∧
         t.lines[n].rx.unplaced = some (byteReq (blockWord s b (textWord 3934)) false (c0.setWidth 8) (.receiver n) .rxByte) ∧
         t.port.waiting = s.port.waiting ++ [.receiver n] ∧ t.pool = s.pool ∧ t.du = s.du ∧ t.store = s.store) ∧
     (∀ (f : Nat) (a : Assembly), win = s.office.held.eom → s.lines[n].rx.asm.storedLength < 3934 → Room 17 s →
       s.lines[n].settingsPending = false → s.lines[n].rx.asm.incomplete = false → s.lines[n].rx.asm.first = some f →
       a = { s.lines[n].rx.asm with
         storedLength := s.lines[n].rx.asm.storedLength + 1, complete := true, autoRelease := true } →
       ∃ u, SamePart { s with lines := s.lines.set n { s.lines[n] with rx := { s.lines[n].rx with
             state := .closing, fifo := rest, noise := e.noise, closePoint := s.lines[n].rx.closePoint - 1, window := [],
             idleTimer := none, closeNext := 16, asm := a } } } u ∧
         requests u = requests s ++
           byteReq (blockWord s b (textWord s.lines[n].rx.asm.storedLength))
             (s.lines[n].rx.asm.storedLength % 2 == 1) (e.code.setWidth 8) (.receiver n) .rxByte ::
           closeWrites s n f b a ∧
         exec (.receiverTake n) s = .next (settle (updLine n
           (fun l => { l with rx := { l.rx with state := .hunting, asm := Assembly.reset, closeNext := 0 } })
           (if a.headerFault then
             { u with walker := { u.walker with
                 queue := u.walker.queue ++ [⟨.handOver, f, a.blockCount, n.val, 1, none⟩] } }
            else routeMessage
             { first := f, blockCount := a.blockCount, cls := a.cls, origin := n.val,
               originStation := (a.origin.getD 0).setWidth 16, serial := a.serial,
               flags := ⟨true, a.mutilated, a.truncated, false, false⟩, directed := false,
               dests := a.dests.map (fun d => d.setWidth 16), autoRelease := true } u))))) ∧
  (∀ (s : State) (n : LineNo) (e : FifoEntry) (rest : List FifoEntry) (win : List Code) (b f : Nat) (r : Receiver),
     Quiet s → n ∉ s.pool.starved → s.lines[n].rx.state = .text → s.lines[n].rx.asm.awaiting = [] →
     s.lines[n].rx.unplaced = none → s.lines[n].rx.fifo = e :: rest → e.gapBefore = false →
     s.lines[n].rx.idleClose = false → s.lines[n].rx.window.length ≤ 4 → s.lines[n].rx.asm.current = some b →
     s.lines[n].rx.asm.first = some f → s.lines[n].rx.asm.storedLength < 3934 →
     s.lines[n].rx.asm.blockCount ≤ chainIndex s.lines[n].rx.asm.storedLength →
     win = (s.lines[n].rx.window ++ [e.code]).drop ((s.lines[n].rx.window ++ [e.code]).length - 4) →
     r = { s.lines[n].rx with
       fifo := rest, noise := e.noise, closePoint := s.lines[n].rx.closePoint - 1, window := win } →
     (∀ (k : Nat) (free : List Nat), s.pool.free = k :: free → s.walker.offered = none → win ≠ s.office.held.eom →
       Room 2 s →
       ∃ t, exec (.receiverTake n) s = .next t ∧
         SamePart { s with
           pool := { s.pool with map := s.pool.map.set k .owned, free := free }
           walker := { s.walker with links := s.walker.links.filter (fun l => l.target != k) }
           lines := s.lines.set n { s.lines[n] with rx := { r with asm := { s.lines[n].rx.asm with
             current := some k, blockCount := s.lines[n].rx.asm.blockCount + 1,
             storedLength := s.lines[n].rx.asm.storedLength + 1 } } } } t ∧
         requests t = requests s ++
           [wordReq (blockWord s b 0) (BitVec.ofNat 16 k) (.receiver n) .rxLink,
            byteReq (blockWord s k (textWord s.lines[n].rx.asm.storedLength))
              (s.lines[n].rx.asm.storedLength % 2 == 1) (e.code.setWidth 8) (.receiver n) .rxByte]) ∧
     (∀ (k : Nat) (free : List Nat), s.pool.free = k :: free → s.walker.offered = none → s.port.waiting ≠ [] →
       Issuer.receiver n ∉ s.port.waiting →
       ∃ t, exec (.receiverTake n) s = .next t ∧ t.port.waiting = s.port.waiting ++ [.receiver n] ∧
         requests t = requests s ∧
         SamePart { s with
           pool := { s.pool with map := s.pool.map.set k .owned, free := free }
           walker := { s.walker with links := s.walker.links.filter (fun l => l.target != k) }
           lines := s.lines.set n { s.lines[n] with rx := { s.lines[n].rx with
             asm := { s.lines[n].rx.asm with
               current := some k, blockCount := s.lines[n].rx.asm.blockCount + 1 }
             unplaced := some (wordReq (blockWord s b 0) (BitVec.ofNat 16 k) (.receiver n) .rxLink) } } } t) ∧
     (s.pool.free = [] → exec (.receiverTake n) s = .next (eventEnd
       { s with pool := { s.pool with starved := s.pool.starved ++ [n] } })))

/-- R78, R76, R77: the expiry of the idle timeout marks the close point; the idle close writes NONE and the fifteen head
words, with the fields of Tables 4-5 and 12-5, and hands the message over as incomplete. The class of a head whose header
ended before a precedence token is the model's reading (log 36). -/
def Obligations.IdleClose : Prop :=
  (∀ (s : State) (n : LineNo), Quiet s → s.lines[n].rx.state = .header ∨ s.lines[n].rx.state = .text →
    s.lines[n].rx.idleTimer ≠ none → exec (.idleTimeoutExpiry n) s = .next (eventEnd
      { s with lines := s.lines.set n { s.lines[n] with rx := { s.lines[n].rx with
          idleTimer := none, idleClose := true, closePoint := s.lines[n].rx.fifo.length } } })) ∧
  (∀ (s : State) (n : LineNo) (f b : Nat) (a : Assembly), s.resetIn = false → s.report.offers = [] → s.walker.walk ≠ none →
    s.lines[n].rx.state = .header ∨ s.lines[n].rx.state = .text → s.lines[n].rx.idleClose = true →
    s.lines[n].rx.closePoint = 0 → n ∉ s.pool.starved → s.lines[n].rx.asm.awaiting = [] →
    s.lines[n].rx.unplaced = none → s.lines[n].rx.pendingGap = false → s.lines[n].settingsPending = false →
    s.lines[n].rx.asm.first = some f → s.lines[n].rx.asm.current = some b → Room 16 s →
    a = { s.lines[n].rx.asm with incomplete := true } →
    ∃ t, exec (.idleClose n) s = .next t ∧
      SamePart { s with
        lines := s.lines.set n { s.lines[n] with rx := { s.lines[n].rx with
          state := .hunting, idleClose := false, window := [], closeNext := 0, asm := Assembly.reset } }
        walker := { s.walker with
          queue := s.walker.queue ++ [⟨.handOver, f, s.lines[n].rx.asm.blockCount, n.val, 2, none⟩] } } t ∧
      requests t = requests s ++ closeWrites s n f b a)

/-- R52, R79, R138, R139: a break is detected and ends. It begins break recovery, which a party line records and does not act
on (log 16); on a point-to-point line an IDLE transmitter goes to PAUSE, and one in SENDING with a frame in progress gets the distant break indication; in an underrun
pause the delivery goes back to the head of its queue at once with DELIVERY INTERRUPTED 3 and the line pauses. On a line of
either type a message in HEADER or TEXT is abandoned, with a report of its own when it has no block. Where the abandonment
makes a pending transfer possible that turns an IDLE party line point-to-point (R129), the line pauses as break recovery
asks. -/
def Obligations.Break : Prop :=
  (∀ (s : State) (n : LineNo) (l : LineUnit), Quiet s → s.lines[n].tx.state ≠ .off → s.lines[n].settingsPending = false →
    l = { s.lines[n] with
      spaceRun := 128, markRun := 0, inBreak := true, sampler := { s.lines[n].sampler with state := .waitMark },
      rx := { s.lines[n].rx with idleTimer := s.lines[n].rx.idleTimer.map (fun _ => 0) } } →
    (∀ u : LineUnit, s.lines[n].inBreak = false →
      (s.lines[n].active.type = .party ∧ u = { l with recovery := true }) ∨
        (s.lines[n].active.type = .pointToPoint ∧ s.lines[n].tx.state = .idle ∧
          u = { l with recovery := true, tx := { l.tx with state := .pause, send := true } }) ∨
        (s.lines[n].active.type = .pointToPoint ∧ s.lines[n].tx.state = .sending ∧ s.lines[n].tx.sending ≠ none ∧
          u = { l with recovery := true, tx := { l.tx with distantBreak := true } }) ∨
        (s.lines[n].active.type = .pointToPoint ∧ s.lines[n].tx.state ≠ .idle ∧ s.lines[n].tx.state ≠ .sending ∧
          u = { l with recovery := true }) →
      ((s.lines[n].rx.state = .hunting ∨ s.lines[n].rx.state = .closing ∨ s.lines[n].rx.idleClose = true) →
        exec (.breakDetection n) s = .next (eventEnd { s with lines := s.lines.set n u })) ∧
      ((s.lines[n].rx.state = .header ∨ s.lines[n].rx.state = .text) → s.lines[n].rx.idleClose = false →
        s.lines[n].rx.unplaced = none →
        (s.lines[n].rx.asm.blockCount = 0 →
          ∃ t, exec (.breakDetection n) s = .next t ∧
            Offers (plainReport .messageAbandoned n.val 65535 0 s.office.clock)
              { s with
                pool := { s.pool with starved := s.pool.starved.filter (fun m => m != n) }
                lines := s.lines.set n { u with rx := { u.rx with
                  state := .hunting, fifo := [], pendingGap := false, window := [], asm := Assembly.reset,
                  closePoint := 0, idleTimer := none, closeNext := 0 } } } t) ∧
        (∀ f, 0 < s.lines[n].rx.asm.blockCount → s.lines[n].rx.asm.first = some f →
          0 < placedCount (.receiver n) s → s.lines[n].rx.abandon = [] →
          ∃ t, exec (.breakDetection n) s = .next t ∧
            SamePart { s with
              pool := { s.pool with starved := s.pool.starved.filter (fun m => m != n) }
              lines := s.lines.set n { u with rx := { u.rx with
                state := .hunting, fifo := [], pendingGap := false, window := [], asm := Assembly.reset, closePoint := 0,
                idleTimer := none, closeNext := 0,
                abandon := [⟨f, s.lines[n].rx.asm.blockCount, placedCount (.receiver n) s⟩] } } } t ∧
            requests t = requests s))) ∧
    (∀ h, s.lines[n].inBreak = false → s.lines[n].active.type = .pointToPoint → s.lines[n].tx.state = .sending →
      s.lines[n].rx.state = .hunting → s.lines[n].tx.sending = none → s.lines[n].tx.owed = none →
      s.lines[n].tx.opening = [] → s.lines[n].tx.holding = [] → s.lines[n].tx.stopping = false →
      s.lines[n].tx.hand = some h → s.du.entries[h.number].cancelPending = false → s.du.entries[h.number].attempts < 2 →
      s.du.entries[h.number].line = n → s.du.active[n] = some h.number → s.du.rewrites = [] →
      ∃ t, exec (.breakDetection n) s = .next t ∧
        Offers (plainReport .deliveryInterrupted n.val (BitVec.ofNat 16 h.number.val) 3 s.office.clock)
          { s with
            du := { s.du with
              entries := s.du.entries.set h.number { s.du.entries[h.number] with
                state := .queued, attempts := s.du.entries[h.number].attempts + 1,
                repeatFlag := s.du.entries[h.number].repeatFlag || s.lines[n].tx.textBegun }
              queues := s.du.queues.set n (h.number :: s.du.queues[n])
              active := s.du.active.set n none }
            lines := s.lines.set n { l with recovery := true, tx := { s.lines[n].tx with
              state := .pause, send := true, hand := none, textBegun := false, lenKnown := false, callPos := none,
              answerCount := none, answerWindow := [], out := [],
              stale := s.lines[n].tx.stale + s.lines[n].tx.live, live := 0, distantBreak := false,
              breakInPending := false } } } t) ∧
    (s.lines[n].inBreak = true → exec (.breakEnd n) s = .next (eventEnd
      { s with lines := s.lines.set n { s.lines[n] with
          markRun := 1, spaceRun := 0, inBreak := false, sampler := { s.lines[n].sampler with state := .waitStart } } }))) ∧
  (∀ (s : State) (n : LineNo), Quiet s → s.lines[n].tx.state = .idle → s.lines[n].active.type = .party →
    s.lines[n].settingsPending = true → s.lines[n].shadow.type = .pointToPoint → s.lines[n].inBreak = false →
    (s.lines[n].rx.state = .header ∨ s.lines[n].rx.state = .text) → s.lines[n].rx.idleClose = false →
    s.lines[n].rx.unplaced = none → s.lines[n].rx.asm.blockCount = 0 →
    ∃ t, exec (.breakDetection n) s = .next t ∧
      Offers (plainReport .messageAbandoned n.val 65535 0 s.office.clock)
        { s with
          pool := { s.pool with starved := s.pool.starved.filter (fun m => m != n) }
          lines := s.lines.set n { s.lines[n] with
            active := s.lines[n].shadow, settingsPending := false, spaceRun := 128, markRun := 0, inBreak := true,
            recovery := true, sampler := { s.lines[n].sampler with state := .waitMark }
            rx := { s.lines[n].rx with
              state := .hunting, fifo := [], pendingGap := false, window := [], asm := Assembly.reset, closePoint := 0,
              idleTimer := none, closeNext := 0 }
            tx := { s.lines[n].tx with
              state := .pause, send := true, backingOff := false, backoffCount := none, backoffVoid := false } } } t)

/-- R53: a loop open sets the faulted flag and offers LINE FAULT, once; a faulted point-to-point line selects no
delivery. -/
def Obligations.LoopOpen : Prop :=
  (∀ (s : State) (n : LineNo) (l : LineUnit), Quiet s → s.lines[n].tx.state ≠ .off →
    l = { s.lines[n] with
      spaceRun := 4096, markRun := 0, rx := { s.lines[n].rx with idleTimer := s.lines[n].rx.idleTimer.map (fun _ => 0) } } →
    (s.lines[n].faulted = false → ∃ t, exec (.loopOpen n) s = .next t ∧
      Offers (plainReport .lineFault n.val 65535 0 s.office.clock)
        { s with lines := s.lines.set n { l with faulted := true } } t) ∧
    (s.lines[n].faulted = true → exec (.loopOpen n) s = .next (eventEnd { s with lines := s.lines.set n l }))) ∧
  (∀ (s : State) (n : LineNo), s.lines[n].faulted = true → s.lines[n].active.type = .pointToPoint → selection s n = none)

/-- R54, R139: steady mark restores a faulted line with LINE RESTORED, and ends break recovery: PAUSE goes to IDLE. -/
def Obligations.SteadyMark : Prop :=
  ∀ (s : State) (n : LineNo) (l : LineUnit), Quiet s → s.lines[n].tx.state ≠ .off → s.lines[n].settingsPending = false →
    l = { s.lines[n] with
      markRun := 64, spaceRun := 0, inBreak := false, sampler := { s.lines[n].sampler with state := .waitStart } } →
    (s.lines[n].faulted = false → s.lines[n].recovery = false ∨ s.lines[n].tx.state ≠ .pause →
      exec (.steadyMark n) s = .next (eventEnd { s with lines := s.lines.set n { l with recovery := false } })) ∧
    (s.lines[n].faulted = true → s.lines[n].recovery = false ∨ s.lines[n].tx.state ≠ .pause →
      (s.lines[n].active.type = .party ∨ s.lines[n].tx.state ≠ .idle) →
      ∃ t, exec (.steadyMark n) s = .next t ∧
        Offers (plainReport .lineRestored n.val 65535 0 s.office.clock)
          { s with lines := s.lines.set n { l with faulted := false, recovery := false } } t) ∧
    (s.lines[n].faulted = false → s.lines[n].recovery = true → s.lines[n].active.type = .pointToPoint →
      s.lines[n].tx.state = .pause → s.du.queues[n] = [] →
      exec (.steadyMark n) s = .next (eventEnd
        { s with lines := s.lines.set n { l with recovery := false, tx := { l.tx with state := .idle, send := true } } }))

/-- R46, R47, R145: a start edge begins a character at sample 0 and restarts a running guard count; a false start leaves
the character, or at a space sample 5 begins another. -/
def Obligations.StartEdge : Prop :=
  ∀ (s : State) (n : LineNo) (l : LineUnit), Quiet s → s.lines[n].tx.state ≠ .off →
    l = { s.lines[n] with
      spaceRun := 1, markRun := 0, rx := { s.lines[n].rx with idleTimer := s.lines[n].rx.idleTimer.map (fun _ => 0) }
      sampler := { state := .inCharacter, sample := 0, code := 0, noise := false, framing := false }
      tx := { s.lines[n].tx with guardCount := s.lines[n].tx.guardCount.map (fun _ => 0) } } →
    (s.lines[n].sampler.state ≠ .inCharacter → s.lines[n].inBreak = false →
      exec (.startEdge n) s = .next (eventEnd { s with lines := s.lines.set n l })) ∧
    (s.lines[n].sampler.state = .inCharacter → s.lines[n].settingsPending = false →
      exec (.falseStart n true) s = .next (eventEnd { s with lines := s.lines.set n l })) ∧
    (s.lines[n].sampler.state = .inCharacter → s.lines[n].settingsPending = false →
      exec (.falseStart n false) s = .next (eventEnd
        { s with lines := s.lines.set n { s.lines[n] with
            sampler := { s.lines[n].sampler with state := .waitStart } } }))

/-! ## Stations and routing -/

/-- R88, R89: a commit is accepted exactly when every valid shadow entry passes the five checks of Table 5-3; else the
first valid entry that fails decides, with the first check it fails. Accepted, the active table takes every shadow entry;
refused, no table changes; a COMMIT report tells which, and the write is forwarded. -/
def Obligations.Commit : Prop :=
  (∀ (t : Vector Station 64) (fails : StationNo → Nat → Prop),
     (∀ k i, fails k i ↔ t[k].valid = true ∧
       ((i = 1 ∧ ∃ j : StationNo, j < k ∧ t[j].valid = true ∧ t[j].code = t[k].code) ∨
         (i = 2 ∧ 23 < t[k].line.toNat) ∨
         (i = 3 ∧ t[k].service = .diverted ∧ t[k].divert.toNat = k.val) ∨
         (i = 4 ∧ t[k].service = .diverted ∧ 64 ≤ t[k].divert.toNat) ∨
         (i = 5 ∧ t[k].service = .diverted ∧
           ¬ ∃ j : StationNo, j.val = t[k].divert.toNat ∧ t[j].valid = true))) →
     (commitFailure t = none ↔ ∀ k i, ¬ fails k i) ∧
     (∀ k r, commitFailure t = some (k, r) ↔
       fails k r ∧ (∀ i, i < r → ¬ fails k i) ∧ ∀ j i, j < k → ¬ fails j i)) ∧
  (∀ s : State, Accessible s → running s = true →
     (commitFailure s.router.shadow = none →
       ∃ t, exec (.commitStations .both) s = .next t ∧ Forwards (pageWrite s 20 1 .both) t ∧
         Offers (plainReport .commit 31
             (BitVec.ofNat 16 ((List.finRange 64).filter (fun k => s.router.shadow[k].valid)).length) 0 s.office.clock)
           { s with router := { active := s.router.shadow, shadow := s.router.shadow } } t) ∧
     (∀ k r, commitFailure s.router.shadow = some (k, r) →
       ∃ t, exec (.commitStations .both) s = .next t ∧ Forwards (pageWrite s 20 1 .both) t ∧
         Offers (plainReport .commit 31 (BitVec.ofNat 16 k.val) (BitVec.ofNat 16 r) s.office.clock) s t))

/-- R87: a shadow write replaces the fields its word carries in one entry of the shadow, in every office state. -/
def Obligations.StationShadowWrite : Prop :=
  ∀ (s : State) (k : StationNo) (w : Fin 4) (v : Word) (e : Station), Accessible s →
    ((w = 0 ∧ e = { s.router.shadow[k] with
        valid := v.getLsbD 15, line := v.extractLsb' 0 5,
        service := if v.extractLsb' 8 2 = 0#2 then .inService
          else if v.extractLsb' 8 2 = 2#2 then .diverted else .outOfService }) ∨
      (w = 1 ∧ e = { s.router.shadow[k] with code := v.extractLsb' 0 10 }) ∨
      (w = 2 ∧ e = { s.router.shadow[k] with
        callCode := if v.getLsbD 15 then some (v.extractLsb' 0 10) else none, confirm := v.getLsbD 14 }) ∨
      (w = 3 ∧ e = { s.router.shadow[k] with divert := v })) →
    exec (.stationShadowWrite k w v .both) s =
      .next (eventEnd (forward (pageWrite s (256 + 4 * k.val + w.val) v .both)
        { s with router := { s.router with shadow := s.router.shadow.set k e } })) ∧
    ∀ be : ByteEnables, be ≠ .both → exec (.stationShadowWrite k w v be) s =
      .next (eventEnd (forward (pageWrite s (256 + 4 * k.val + w.val) v be) s))

/-- R91 to R95: the content of a delivery plan, and its bounds. Table 5-4 says what a destination resolves to. The lines of
the resolved stations, without duplicates and in order of first appearance, are served one after another: a point-to-point
line by one delivery that calls no station; a party line by deliveries whose call sets hold, in order and four to a
delivery, its stations that have a call code, or by one that calls none where no station has. A directed message has one
delivery for each line it lists. A plan for 1 to 8 destinations holds at most 8 deliveries of at most four members, each
with the line, call code and confirm of its active entry. -/
def Obligations.DeliveryPlanBounds : Prop :=
  (∀ (s : State) (m : MessageRecord), m.dests.length ≤ 8 →
    (deliveryPlan s m).length ≤ 8 ∧
    ∀ p ∈ deliveryPlan s m, p.callSet.length ≤ 4 ∧
      (m.directed = true ∨ s.lines[p.line].active.type = .pointToPoint → p.callSet = []) ∧
      ∀ c ∈ p.callSet, stationLine s.router.active[c.station] = p.line ∧
        s.router.active[c.station].callCode = some c.callCode ∧ s.router.active[c.station].confirm = c.confirm ∧
        c.answered = false) ∧
  (∀ (t : Vector Station 64) (v : Word),
    ((∀ k : StationNo, t[k].valid = true → t[k].code.toNat ≠ v.toNat) → resolve t v = none) ∧
    (∀ k : StationNo, t[k].valid = true → t[k].code.toNat = v.toNat →
      (∀ j : StationNo, j < k → t[j].valid = true → t[j].code.toNat ≠ v.toNat) →
      (t[k].service = .inService → resolve t v = some k) ∧
      (t[k].service = .outOfService → resolve t v = none) ∧
      (t[k].service = .diverted → 64 ≤ t[k].divert.toNat → resolve t v = none) ∧
      ∀ j : StationNo, t[k].service = .diverted → t[k].divert.toNat = j.val →
        resolve t v = if t[j].service = .inService then some j else none)) ∧
  (∀ e : Station, e.line.toNat < 24 → (stationLine e).val = e.line.toNat) ∧
  (∀ (s : State) (m : MessageRecord) (plan : List Planned) (stations : List StationNo), m.dests.length ≤ 8 →
    m.directed = false → plan = deliveryPlan s m →
    stations = (m.dests.filterMap (resolve s.router.active)).eraseDups →
    plan = ((stations.map (fun k => stationLine s.router.active[k])).eraseDups).flatMap
      (fun n => plan.filter (fun p => p.line == n)) ∧
    ∀ (n : LineNo) (called : List StationNo), (∃ k ∈ stations, stationLine s.router.active[k] = n) →
      called = stations.filter (fun k =>
        stationLine s.router.active[k] == n && s.router.active[k].callCode.isSome) →
      (s.lines[n].active.type = .pointToPoint → plan.filter (fun p => p.line == n) = [⟨n, []⟩]) ∧
      (s.lines[n].active.type = .party →
        ((plan.filter (fun p => p.line == n)).flatMap (fun p => p.callSet.map (fun c => c.station)) = called ∧
          (called = [] → plan.filter (fun p => p.line == n) = [⟨n, []⟩]) ∧
          (called ≠ [] → (plan.filter (fun p => p.line == n)).length = (called.length + 3) / 4 ∧
            ∀ p ∈ (plan.filter (fun p => p.line == n)).dropLast, p.callSet.length = 4)))) ∧
  (∀ (s : State) (m : MessageRecord), m.directed = true → (∀ v ∈ m.dests, v.toNat < 24) →
    (deliveryPlan s m).map (fun p => p.line.val) = (m.dests.map (fun v => v.toNat)).eraseDups ∧
    ∀ p ∈ deliveryPlan s m, p.callSet = [])

/-- R96 to R99, R102: the outcome of a routing event. With an empty plan the message is held with reason 3; with no FREE
transit entry or too few FREE delivery entries with reason 4; else the lowest FREE transit entry becomes LIVE with one
outstanding delivery for each planned one, the lowest FREE delivery entries become QUEUED in plan order, each at the tail of
its line's queue, the count is written into the head and MESSAGE ROUTED is offered with the counts of deliveries and of
unroutable destinations, which the Report Unit takes as the event ends; this last where no enqueue makes a preemption or a
selection. That the head rewrite stands before the words of MESSAGE ROUTED, two issuers at one event, is the model's choice
(log 15), and so is the retry time 0 of
an entry at its making (log 45). -/
def Obligations.RoutingOutcome : Prop :=
  ∀ (s : State) (m : MessageRecord) (plan : List Planned), plan = deliveryPlan s m →
    (∀ reason, (plan = [] ∧ reason = 3) ∨
        (plan ≠ [] ∧ ((∀ k : TransitNo, s.du.transit[k].state ≠ .free) ∨ freeDeliveries s < plan.length) ∧ reason = 4) →
      routeMessage m s = { s with walker := { s.walker with
        queue := s.walker.queue ++ [⟨.handOver, m.first, m.blockCount, m.origin, reason, none⟩] } }) ∧
    (∀ k : TransitNo, plan ≠ [] → plan.length ≤ freeDeliveries s → s.du.transit[k].state = .free →
      (m.cls ≠ 0 ∨ ∀ n : LineNo, s.lines[n].tx.hand = none ∧ s.lines[n].tx.state ≠ .idle) →
      (∀ j : TransitNo, j < k → s.du.transit[j].state ≠ .free) →
      (routeMessage m s).du.transit[k] =
        { state := .live, first := m.first, blockCount := m.blockCount, origin := m.origin,
          autoRelease := m.autoRelease, outstanding := plan.length } ∧
      ∀ j : TransitNo, j ≠ k → (routeMessage m s).du.transit[j] = s.du.transit[j]) ∧
    (∀ (k : TransitNo) (taken : List (DeliveryNo × Planned)) (t : State), s.report.offers = [] →
      t = takeOffers (routeMessage m s) → m.dests.length ≤ 8 →
      plan ≠ [] → plan.length ≤ freeDeliveries s → s.du.transit[k].state = .free →
      (∀ j : TransitNo, j < k → s.du.transit[j].state ≠ .free) →
      (∀ n : LineNo, s.lines[n].tx.state ≠ .idle) → (m.cls ≠ 0 ∨ ∀ n : LineNo, s.lines[n].tx.hand = none) →
      s.du.rewrites = [] → Room 5 s → RingRoom 1 s →
      taken = ((List.finRange 256).filter (fun d => s.du.entries[d].state == .free)).zip plan →
      (∀ x ∈ taken, t.du.entries[x.1] =
        { state := .queued, transit := k, line := x.2.line, cls := m.cls, queuedTime := s.office.clock, attempts := 0,
          repeatFlag := false, retryTime := 0, cancelPending := false, callSet := x.2.callSet }) ∧
      (∀ d : DeliveryNo, (∀ x ∈ taken, x.1 ≠ d) → t.du.entries[d] = s.du.entries[d]) ∧
      (∀ n : LineNo, t.du.queues[n] =
        s.du.queues[n] ++ (taken.filter (fun x => x.2.line == n)).map (fun x => x.1)) ∧
      t.report.fill = s.report.fill + 1 ∧
      requests t = requests s ++
        byteReq (blockWord s m.first 6) true (BitVec.ofNat 8 plan.length) .delivery .rewrite ::
          reportWords s s.report.fill (plainReport .messageRouted m.origin (BitVec.ofNat 16 m.first)
            (BitVec.ofNat 8 (if m.directed then 0
                else (m.dests.filter (fun v => (resolve s.router.active v).isNone)).length) ++
              BitVec.ofNat 8 plan.length) s.office.clock) ∧
      { t with du := s.du, port := s.port, report := s.report } = s)

/-! ## Deliveries -/

/-- R107: the effective class is the declared class less one for each ageing interval waited, never below 1 unless the
declared class is 0, and never above the declared class. -/
def Obligations.EffectiveClass : Prop :=
  ∀ (s : State) (e : Delivery),
    effectiveClass s e ≤ e.cls ∧ (effectiveClass s e = 0 ↔ e.cls = 0) ∧
    (s.office.held.ageing = 0 → effectiveClass s e = e.cls) ∧
    (s.office.clock.toNat < e.queuedTime.toNat → effectiveClass s e = e.cls) ∧
    (0 < s.office.held.ageing → e.queuedTime.toNat ≤ s.office.clock.toNat → 0 < e.cls →
      ∀ q, q * s.office.held.ageing ≤ s.office.clock.toNat - e.queuedTime.toNat →
        s.office.clock.toNat - e.queuedTime.toNat < (q + 1) * s.office.held.ageing →
        effectiveClass s e = if q + 1 ≤ e.cls then e.cls - q else 1)

/-- R108, R109: a selection answers a delivery exactly when the conditions hold and the queue has one, and it chooses the
entry of smallest effective class nearest the head. -/
def Obligations.Selection : Prop :=
  ∀ (s : State) (n : LineNo),
    (selection s n = none ↔ s.du.queues[n] = [] ∨ s.lines[n].tx.state = .off ∨ s.lines[n].tx.stopping = true ∨
      s.office.holdLatch = true ∨ s.du.active[n] ≠ none ∨
      (s.lines[n].active.type = .pointToPoint ∧ s.lines[n].faulted = true) ∨
      (s.lines[n].active.type = .party ∧ s.lines[n].tx.backingOff = true)) ∧
    ∀ d, selection s n = some d → ∃ front back, s.du.queues[n] = front ++ d :: back ∧
      (∀ x ∈ front, effectiveClass s s.du.entries[d] < effectiveClass s s.du.entries[x]) ∧
      (∀ x ∈ back, effectiveClass s s.du.entries[d] ≤ effectiveClass s s.du.entries[x])

/-- R115, R116: the cancel word while RUNNING, by the state of the entry it names. A freed entry's head rewrite is placed at
once where the queue has room, and its report and its walk request are then handed over (R104, R177), so that the words of
the report stand before the first requests of the walk that ends the message, here one that begins at once; while another
issuer waits it joins the rewrite list. -/
def Obligations.CancelWord : Prop :=
  ∀ (s : State) (v : Word), Accessible s → running s = true →
    ((256 ≤ v.toNat ∨ ∃ d : DeliveryNo, d.val = v.toNat ∧ s.du.entries[d].state = .free) →
      ∃ t, exec (.cancelWord v .both) s = .next t ∧ Forwards (pageWrite s 21 v .both) t ∧
        Offers (plainReport .cancelRefused 31 v 1 s.office.clock) s t) ∧
    (∀ d : DeliveryNo, d.val = v.toNat →
      (s.du.entries[d].state = .active → s.du.entries[d].cancelPending = true →
        exec (.cancelWord v .both) s = .next (eventEnd (forward (pageWrite s 21 v .both) s))) ∧
      (s.du.entries[d].state = .active → s.du.entries[d].cancelPending = false →
        s.lines[s.du.entries[d].line].tx.sending ≠ none → s.lines[s.du.entries[d].line].tx.state ≠ .answerWait →
        exec (.cancelWord v .both) s = .next (eventEnd (forward (pageWrite s 21 v .both)
          { s with du := { s.du with
              entries := s.du.entries.set d { s.du.entries[d] with cancelPending := true } } }))) ∧
      (∀ (n : LineNo) (k : TransitNo) (count : Nat), s.du.entries[d].state = .queued ∨ s.du.entries[d].state = .waiting →
        n = s.du.entries[d].line → k = s.du.entries[d].transit → s.du.active[n] ≠ some d →
        s.du.transit[k].outstanding = count + 1 → s.port.waiting ≠ [] →
        ∃ t, exec (.cancelWord v .both) s = .next t ∧ Forwards (pageWrite s 21 v .both) t ∧
          SamePart { s with du := { s.du with
            entries := s.du.entries.set d { s.du.entries[d] with state := .free, cancelPending := false }
            queues := s.du.queues.set n (s.du.queues[n].filter (fun x => x != d))
            transit := s.du.transit.set k { s.du.transit[k] with
              outstanding := count, state := if count = 0 then .releasing else s.du.transit[k].state }
            rewrites := addRewrite (blockWord s s.du.transit[k].first 6) count
              [plainReport .deliveryCancelled n.val v (BitVec.ofNat 16 k.val) s.office.clock]
              (if count = 0 then
                some ⟨if s.du.transit[k].autoRelease then .release else .handOver, s.du.transit[k].first,
                  s.du.transit[k].blockCount, s.du.transit[k].origin, 0, some k⟩
               else none) s.du.rewrites } } t) ∧
      (∀ (n : LineNo) (k : TransitNo) (count : Nat), s.du.entries[d].state = .queued ∨ s.du.entries[d].state = .waiting →
        n = s.du.entries[d].line → k = s.du.entries[d].transit → s.du.active[n] ≠ some d →
        s.du.transit[k].outstanding = count + 1 → s.du.rewrites = [] → Room 5 s → RingRoom 1 s →
        (0 < count ∨ s.walker.walk ≠ none) →
        ∃ t, exec (.cancelWord v .both) s = .next t ∧ Forwards (pageWrite s 21 v .both) t ∧
          SamePart { s with
            du := { s.du with
              entries := s.du.entries.set d { s.du.entries[d] with state := .free, cancelPending := false }
              queues := s.du.queues.set n (s.du.queues[n].filter (fun x => x != d))
              transit := s.du.transit.set k { s.du.transit[k] with
                outstanding := count, state := if count = 0 then .releasing else s.du.transit[k].state } }
            walker := { s.walker with queue := s.walker.queue ++
              (if count = 0 then
                [⟨if s.du.transit[k].autoRelease then .release else .handOver, s.du.transit[k].first,
                  s.du.transit[k].blockCount, s.du.transit[k].origin, 0, some k⟩]
               else []) } } t ∧
          t.report.fill = s.report.fill + 1 ∧
          requests t = requests s ++
            byteReq (blockWord s s.du.transit[k].first 6) true (BitVec.ofNat 8 count) .delivery .rewrite ::
              reportWords s s.report.fill
                (plainReport .deliveryCancelled n.val v (BitVec.ofNat 16 k.val) s.office.clock)) ∧
      (∀ (n : LineNo) (k : TransitNo) (e : Transit), s.du.entries[d].state = .queued ∨ s.du.entries[d].state = .waiting →
        n = s.du.entries[d].line → k = s.du.entries[d].transit → s.du.active[n] ≠ some d → e = s.du.transit[k] →
        e.outstanding = 1 → 2 ≤ e.blockCount → blockState s e.first = some .owned → s.du.rewrites = [] → Room 7 s →
        RingRoom 1 s → s.walker.walk = none → s.walker.links = [] →
        ∃ t, exec (.cancelWord v .both) s = .next t ∧ Forwards (pageWrite s 21 v .both) t ∧
          SamePart { s with
            du := { s.du with
              entries := s.du.entries.set d { s.du.entries[d] with state := .free, cancelPending := false }
              queues := s.du.queues.set n (s.du.queues[n].filter (fun x => x != d))
              transit := s.du.transit.set k { e with outstanding := 0, state := .releasing } }
            walker := { s.walker with
              offered := none
              walk := some {
                req := ⟨if e.autoRelease then .release else .handOver, e.first, e.blockCount, e.origin, 0, some k⟩
                block := e.first, acted := 0, marked := [], words := [], serial := 0, todo := [] } } } t ∧
          t.report.fill = s.report.fill + 1 ∧
          requests t = requests s ++
            byteReq (blockWord s e.first 6) true 0 .delivery .rewrite ::
              (reportWords s s.report.fill
                  (plainReport .deliveryCancelled n.val v (BitVec.ofNat 16 k.val) s.office.clock) ++
                (if e.autoRelease then [] else [byteReq (blockWord s e.first 2) true 0 .walker .handOverHead]) ++
                [readReq (blockWord s e.first 0) .walker .walkLink])))

/-- R104: a count change replaces the value of the rewrite that stands for the head, which keeps its place and gathers
the reports; else a rewrite joins the tail. The list never holds two rewrites for one head. -/
def Obligations.OneRewritePerHead : Prop :=
  ∀ (addr : Addr) (count : Nat) (reports : List Record) (walk : Option WalkRequest) (ws : List Rewrite),
    ((∀ w ∈ ws, w.addr ≠ addr) → addRewrite addr count reports walk ws = ws ++ [⟨addr, count, reports, walk⟩]) ∧
    (∀ front w back, ws = front ++ w :: back → w.addr = addr → (∀ x ∈ front, x.addr ≠ addr) →
      addRewrite addr count reports walk ws =
        front ++ ⟨addr, count, w.reports ++ reports, walk.or w.walk⟩ :: back) ∧
    ((ws.map Rewrite.addr).Nodup → ((addRewrite addr count reports walk ws).map Rewrite.addr).Nodup)

/-! ## The office clock -/

/-- R57 to R59, R112, R160, R161: the clock's advance, the capture of its high half, and its set, in states where no
WAITING delivery is due; a set at the cycle of an advance that is not yet taken makes that advance void (log 42). And an
advance at which one delivery is due, which joins the tail of its line queue; one of class 0 sets break-in pending where the
delivery in hand has effective class 2 or more, and with no frame in progress that delivery is interrupted at once and the
line owes a break-in. -/
def Obligations.ClockCommands : Prop :=
  ((∀ s : State, Quiet s → running s = true → s.office.advanceVoid = false → NoneDue (s.office.clock + 1) s →
     exec .clockAdvance s = .next (eventEnd { s with
       office := { s.office with clock := s.office.clock + 1, divider := 0 } })) ∧
   (∀ s : State, Quiet s → running s = true → s.office.advanceVoid = true →
     exec .clockAdvance s = .next (eventEnd { s with office := { s.office with advanceVoid := false } })) ∧
   (∀ (s : State) (v : Word), Accessible s → running s = true →
     exec (.clockSetHigh v .both) s = .next (eventEnd (forward (pageWrite s 22 v .both)
       { s with office := { s.office with captured := some v } }))) ∧
   (∀ (s : State) (v hi : Word) (time : BitVec 32), Accessible s → running s = true →
     (s.office.captured = some hi ∨ (s.office.captured = none ∧ hi = 0)) →
     time.toNat = hi.toNat * 65536 + v.toNat → NoneDue time s →
     exec (.clockSetLow v .both) s = .next (eventEnd (forward (pageWrite s 23 v .both)
       { s with office := { s.office with
           clock := time, divider := 0, captured := none,
           advanceVoid := s.office.advanceVoid || decide (2457600 ≤ s.office.divider) } })))) ∧
  (∀ (s : State) (d : DeliveryNo) (n : LineNo) (o : OfficeControl) (queue : List DeliveryNo), Quiet s → running s = true →
     s.office.advanceVoid = false → s.du.entries[d].state = .waiting →
     s.du.entries[d].retryTime.toNat ≤ (s.office.clock + 1).toNat → n = s.du.entries[d].line →
     (∀ j : DeliveryNo, j ≠ d → s.du.entries[j].state = .waiting →
       (s.office.clock + 1).toNat < s.du.entries[j].retryTime.toNat) →
     o = { s.office with clock := s.office.clock + 1, divider := 0 } → queue = s.du.queues[n] ++ [d] →
     (s.lines[n].tx.state ≠ .idle → (s.du.entries[d].cls ≠ 0 ∨ s.lines[n].tx.hand = none) →
       exec .clockAdvance s = .next (eventEnd { s with
         office := o
         du := { s.du with
           entries := s.du.entries.set d { s.du.entries[d] with state := .queued }
           queues := s.du.queues.set n queue } })) ∧
     (∀ h, s.du.entries[d].cls = 0 → s.lines[n].tx.hand = some h → h.number ≠ d →
       (s.lines[n].tx.state = .calling ∨ s.lines[n].tx.state = .answerWait ∨ s.lines[n].tx.state = .sending) →
       ((s.lines[n].tx.breakInPending = true ∨ effectiveClass { s with office := o } s.du.entries[h.number] < 2) →
         exec .clockAdvance s = .next (eventEnd { s with
           office := o
           du := { s.du with
             entries := s.du.entries.set d { s.du.entries[d] with state := .queued }
             queues := s.du.queues.set n queue } })) ∧
       (s.lines[n].tx.breakInPending = false → 2 ≤ effectiveClass { s with office := o } s.du.entries[h.number] →
         (s.lines[n].tx.sending ≠ none →
           exec .clockAdvance s = .next (eventEnd { s with
             office := o
             du := { s.du with
               entries := s.du.entries.set d { s.du.entries[d] with state := .queued }
               queues := s.du.queues.set n queue }
             lines := s.lines.set n { s.lines[n] with tx := { s.lines[n].tx with breakInPending := true } } })) ∧
         (s.lines[n].tx.sending = none → (s.lines[n].active.type = .party ∨ s.lines[n].tx.distantBreak = false) →
           s.du.entries[h.number].cancelPending = false → s.du.entries[h.number].line = n →
           s.du.active[n] = some h.number → s.du.rewrites = [] →
           ∃ t, exec .clockAdvance s = .next t ∧
             Offers (plainReport .deliveryInterrupted n.val (BitVec.ofNat 16 h.number.val) 5 (s.office.clock + 1))
               { s with
                 office := o
                 du := { s.du with
                   entries := (s.du.entries.set d { s.du.entries[d] with state := .queued }).set h.number
                     { s.du.entries[h.number] with
                       state := .queued, repeatFlag := s.du.entries[h.number].repeatFlag || s.lines[n].tx.textBegun }
                   queues := s.du.queues.set n (h.number :: queue)
                   active := s.du.active.set n none }
                 lines := s.lines.set n { s.lines[n] with tx := { s.lines[n].tx with
                   state := .breakIn, owed := some .breakIn, send := true, breakInPending := true, hand := none,
                   textBegun := false, holding := [], opening := [], lenKnown := false, callPos := none,
                   answerCount := none, answerWindow := [], out := [],
                   stale := s.lines[n].tx.stale + s.lines[n].tx.live, live := 0 } } } t))))

/-! ## Lines -/

/-- R124: ENABLE while RUNNING. A line that is OFF gets a hunting receiver and a transmitter that owes a preamble, or is
HELD under the hold latch; any other line ignores it. -/
def Obligations.Enable : Prop :=
  ∀ (s : State) (n : LineNo) (l : LineUnit), Accessible s → running s = true →
    l = { s.lines[n] with
      divider := 0, sampler := Sampler.reset, spaceRun := 0, markRun := 0, recent := (true, true),
      rx := { s.lines[n].rx with state := .hunting, fifo := [], pendingGap := false, window := [], asm := Assembly.reset,
                                 idleClose := false } } →
    (s.lines[n].tx.state = .off → s.office.holdLatch = false →
      exec (.enable n .both) s = .next (eventEnd (forward (pageWrite s (128 + n.val) 1 .both)
        { s with lines := s.lines.set n { l with tx := { l.tx with state := .preamble, owed := some .preamble, send := true } } }))) ∧
    (s.lines[n].tx.state = .off → s.office.holdLatch = true →
      exec (.enable n .both) s = .next (eventEnd (forward (pageWrite s (128 + n.val) 1 .both)
        { s with lines := s.lines.set n { l with tx := { l.tx with state := .held, send := true } } }))) ∧
    (s.lines[n].tx.state ≠ .off →
      exec (.enable n .both) s = .next (eventEnd (forward (pageWrite s (128 + n.val) 1 .both) s)))

/-- R125, R126: DISABLE while RUNNING. OFF or stopping it is ignored; with a frame or break-in in progress the line stops
later; else it goes OFF at once. A delivery in hand, in ANSWER WAIT or between frames, goes back to the head of its queue
with DELIVERY INTERRUPTED 1, or is freed as a cancel (R110, R147); a receiver with a message abandons it (R80, R81). -/
def Obligations.Disable : Prop :=
  ∀ (s : State) (n : LineNo), Accessible s → running s = true →
    (s.lines[n].tx.state = .off ∨ s.lines[n].tx.stopping = true →
      exec (.disable n .both) s = .next (eventEnd (forward (pageWrite s (128 + n.val) 2 .both) s))) ∧
    (s.lines[n].tx.state ≠ .off → s.lines[n].tx.stopping = false →
      (∃ k i, s.lines[n].tx.sending = some ⟨k, i⟩ ∧ k ≠ .preamble) →
      exec (.disable n .both) s = .next (eventEnd (forward (pageWrite s (128 + n.val) 2 .both)
        { s with lines := s.lines.set n { s.lines[n] with tx := { s.lines[n].tx with stopping := true } } }))) ∧
    (s.lines[n].tx.state ≠ .off → s.lines[n].tx.stopping = false → s.lines[n].settingsPending = false →
      (s.lines[n].tx.sending = none ∨ ∃ i, s.lines[n].tx.sending = some ⟨.preamble, i⟩) → s.lines[n].tx.hand = none →
      s.lines[n].rx.state = .hunting →
      ∃ t, exec (.disable n .both) s = .next t ∧ Forwards (pageWrite s (128 + n.val) 2 .both) t ∧
        Issuer.transmitter n ∉ t.port.waiting ∧
        SamePart { s with lines := s.lines.set n { s.lines[n] with
          divider := 0, spaceRun := 0, markRun := 0, recent := (true, true), inBreak := false, recovery := false,
          sampler := Sampler.reset,
          rx := { s.lines[n].rx with state := .off, fifo := [], pendingGap := false, window := [], asm := Assembly.reset,
                                     idleClose := false, closePoint := 0, idleTimer := none, closeNext := 0 },
          tx := { Transmitter.reset with stale := s.lines[n].tx.stale + s.lines[n].tx.live } } } t) ∧
    (s.lines[n].tx.state ≠ .off → s.lines[n].tx.stopping = false → s.lines[n].settingsPending = false →
      (s.lines[n].tx.sending = none ∨ ∃ i, s.lines[n].tx.sending = some ⟨.preamble, i⟩) →
      ∃ t, exec (.disable n .both) s = .next t ∧ Forwards (pageWrite s (128 + n.val) 2 .both) t ∧
        (s.lines[n].tx.hand = none →
          ReceiverGoesOff n s { s with lines := s.lines.set n (offLine s.lines[n]) }
            (fun e => SamePart e t ∧ requests t = requests s) ∧
          (s.lines[n].rx.state = .header ∨ s.lines[n].rx.state = .text → s.lines[n].rx.asm.blockCount = 0 →
            s.lines[n].rx.unplaced = none →
            Offers (plainReport .messageAbandoned n.val 65535 0 s.office.clock)
              (handedOver n s.lines[n].rx.abandon { s with lines := s.lines.set n (offLine s.lines[n]) }) t)) ∧
        (∀ h, s.lines[n].tx.hand = some h → s.du.entries[h.number].line = n → s.du.active[n] = some h.number →
          (s.du.entries[h.number].cancelPending = false → s.du.rewrites = [] →
            ReceiverGoesOff n s
              { s with
                du := interruptedDelivery s n h.number s.lines[n].tx.textBegun
                lines := s.lines.set n (offLine s.lines[n]) }
              (fun e => Offers (plainReport .deliveryInterrupted n.val (BitVec.ofNat 16 h.number.val) 1 s.office.clock)
                e t)) ∧
          (∀ count, s.du.entries[h.number].cancelPending = true → s.port.waiting ≠ [] →
            s.du.transit[s.du.entries[h.number].transit].outstanding = count + 1 →
            ReceiverGoesOff n s
              { s with
                du := freedDelivery s n h.number count [plainReport .deliveryCancelled n.val
                  (BitVec.ofNat 16 h.number.val) (BitVec.ofNat 16 s.du.entries[h.number].transit.val) s.office.clock]
                lines := s.lines.set n (offLine s.lines[n]) }
              (fun e => SamePart e t))))

/-- R127: LINE RESET while RUNNING clears the counts, the faulted flag, the noise indication and the FIFO; a line that is
not OFF goes OFF at once, whatever it is sending. A delivery in hand goes back to the head of its queue with DELIVERY
INTERRUPTED 2, or is freed as a cancel (R110); a receiver with a message abandons it (R80, R81). -/
def Obligations.LineReset : Prop :=
  ∀ (s : State) (n : LineNo) (l : LineUnit), Accessible s → running s = true → s.lines[n].settingsPending = false →
    l = { s.lines[n] with
      framing := 0, overrun := 0, faulted := false, rx := { s.lines[n].rx with fifo := [], noise := false } } →
    (s.lines[n].tx.state = .off →
      exec (.lineReset n .both) s = .next (eventEnd (forward (pageWrite s (128 + n.val) 3 .both)
        { s with lines := s.lines.set n l }))) ∧
    (s.lines[n].tx.state ≠ .off → s.lines[n].tx.hand = none → s.lines[n].rx.state = .hunting →
      ∃ t, exec (.lineReset n .both) s = .next t ∧ Forwards (pageWrite s (128 + n.val) 3 .both) t ∧
        SamePart { s with lines := s.lines.set n { l with
          divider := 0, spaceRun := 0, markRun := 0, recent := (true, true), inBreak := false, recovery := false,
          sampler := Sampler.reset,
          rx := { l.rx with state := .off, pendingGap := false, window := [], asm := Assembly.reset,
                            idleClose := false, closePoint := 0, idleTimer := none, closeNext := 0 },
          tx := { Transmitter.reset with stale := s.lines[n].tx.stale + s.lines[n].tx.live } } } t) ∧
    (∀ off : LineUnit, s.lines[n].tx.state ≠ .off → off = { offLine s.lines[n] with
        framing := 0, overrun := 0, faulted := false, rx := { (offLine s.lines[n]).rx with noise := false } } →
      ∃ t, exec (.lineReset n .both) s = .next t ∧ Forwards (pageWrite s (128 + n.val) 3 .both) t ∧
        (s.lines[n].tx.hand = none →
          ReceiverGoesOff n s { s with lines := s.lines.set n off } (fun e => SamePart e t ∧ requests t = requests s) ∧
          (s.lines[n].rx.state = .header ∨ s.lines[n].rx.state = .text → s.lines[n].rx.asm.blockCount = 0 →
            s.lines[n].rx.unplaced = none →
            Offers (plainReport .messageAbandoned n.val 65535 0 s.office.clock)
              (handedOver n s.lines[n].rx.abandon { s with lines := s.lines.set n off }) t)) ∧
        (∀ h, s.lines[n].tx.hand = some h → s.du.entries[h.number].line = n → s.du.active[n] = some h.number →
          (s.du.entries[h.number].cancelPending = false → s.du.rewrites = [] →
            ReceiverGoesOff n s
              { s with
                du := interruptedDelivery s n h.number s.lines[n].tx.textBegun
                lines := s.lines.set n off }
              (fun e => Offers (plainReport .deliveryInterrupted n.val (BitVec.ofNat 16 h.number.val) 2 s.office.clock)
                e t)) ∧
          (∀ count, s.du.entries[h.number].cancelPending = true → s.port.waiting ≠ [] →
            s.du.transit[s.du.entries[h.number].transit].outstanding = count + 1 →
            ReceiverGoesOff n s
              { s with
                du := freedDelivery s n h.number count [plainReport .deliveryCancelled n.val
                  (BitVec.ofNat 16 h.number.val) (BitVec.ofNat 16 s.du.entries[h.number].transit.val) s.office.clock]
                lines := s.lines.set n off }
              (fun e => SamePart e t))))

/-- R128, R129: a settings word, in every office state. At the idle point of an OFF line it passes to the active settings
at once; away from the idle point it waits in the shadow. -/
def Obligations.LineSettingsWord : Prop :=
  ∀ (s : State) (n : LineNo) (v : Word) (g : Settings), Accessible s →
    g = { divisor := v.extractLsb' 0 12, by8 := v.getLsbD 12,
          stop := if v.extractLsb' 13 2 = 0#2 then .one else if v.extractLsb' 13 2 = 1#2 then .oneAndHalf else .two,
          type := if v.getLsbD 15 then .party else .pointToPoint } →
    (s.lines[n].tx.state = .off → s.lines[n].rx.state = .off →
      exec (.lineSettingsWord n v .both) s = .next (eventEnd (forward (pageWrite s (160 + n.val) v .both)
        { s with lines := s.lines.set n { s.lines[n] with
          shadow := g, active := g, settingsPending := false,
          tx := if g.type = .pointToPoint then { s.lines[n].tx with backingOff := false, backoffCount := none, backoffVoid := false }
            else s.lines[n].tx } }))) ∧
    ((s.lines[n].tx.state ≠ .off ∧ s.lines[n].tx.state ≠ .idle) ∨ s.lines[n].rx.state = .header ∨
        s.lines[n].rx.state = .text ∨ s.lines[n].rx.state = .closing ∨
        (s.lines[n].rx.state = .hunting ∧ s.lines[n].sampler.state = .inCharacter) →
      exec (.lineSettingsWord n v .both) s = .next (eventEnd (forward (pageWrite s (160 + n.val) v .both)
        { s with lines := s.lines.set n { s.lines[n] with shadow := g, settingsPending := true } })))

/-! ## Sendings -/

/-- R44, R45 (Table 3-2): the samples of a frame, a preamble and a break-in, and the level of each. And R43, R46 to R52, R55,
R78, R145, R148, R150, R152: a reference cycle and a sample tick of an enabled line. The divider makes the tick at the end of
the sample period; the tick counts the runs, the sampler's sample with its votes at samples 5, 13, ... 53, the idle timeout
at mark, the guard and backoff counts at an idle loop (in WAIT START after the sample: log 13), the answer count and the
sample of the sending, whose mark elements are checked for collision, and it brings about each event at the tick at which its
count is reached. What of a count the tick changes and what the event does when it is taken is the model's division (logs 1
and 26). And R2, R11, R57: a cycle counts the seconds divider while RUNNING and, with SREADY asserted, may end the store cycle
in progress (log 25); CLOCK_ADVANCE at 2457600 cycles, the row of that completion and the events of the ticks join the tail
of the queue of commands, in an order that is the model's free value (log 9). With nothing due and no input the part's own
step is such a cycle (log 1). -/
def Obligations.SendLevels : Prop :=
  (∀ (c : Code) (stop : StopLength) (i : Nat),
    (SendKind.frame c stop).length = (match stop with | .one => 56 | .oneAndHalf => 60 | .two => 64) ∧
    (i < 8 → (SendKind.frame c stop).level i = false) ∧
    (∀ b, b < 5 → 8 * b + 8 ≤ i → i < 8 * b + 16 → (SendKind.frame c stop).level i = c.getLsbD b) ∧
    (48 ≤ i → (SendKind.frame c stop).level i = true) ∧
    SendKind.preamble.length = 64 ∧ SendKind.preamble.level i = true ∧
    SendKind.breakIn.length = 192 ∧ (SendKind.breakIn.level i = false ↔ i < 128)) ∧
  (∀ s : State, (s.resetIn = true → clockCycle s = s) ∧
    (s.pending = [] → dueEvents s = [] → s.inputs = [] → step s = .next (clockCycle s)) ∧
    (s.resetIn = false →
      (∀ n : LineNo, (clockCycle s).lines[n] = (cycleLine s.office.held n s.pins.recv[n] s.lines[n]).1) ∧
      (clockCycle s).office =
        (if s.office.state = .running then { s.office with divider := s.office.divider + 1 } else s.office) ∧
      { clockCycle s with
        lines := s.lines, office := s.office, pending := s.pending, freeCount := s.freeCount } = s ∧
      ∃ evs, (clockCycle s).pending = s.pending ++ evs ∧
        evs.Perm ((if s.office.state = .running ∧ 2457600 ≤ s.office.divider + 1 then [.clockAdvance] else []) ++
          cycleStore s ++
          (List.finRange 24).flatMap (fun n => (cycleLine s.office.held n s.pins.recv[n] s.lines[n]).2)))) ∧
  (∀ s : State,
    (s.pins.sready = false ∨ s.port.cycle = none → cycleStore s = []) ∧
    (s.pins.sready = true →
      (∀ a, s.port.cycle = some (.forwarded a) → cycleStore s = [.forwardedAccessCompletion]) ∧
      (∀ r, s.port.cycle = some (.internal r) → ∃ c, cycleStore s = [c] ∧
        ((r.purpose = .setupRead ∧ c = .setupReadCompletion) ∨
          (r.purpose = .poolLink true ∧ c = .poolBuildEnd) ∨
          (r.purpose = .walkLink ∧ c = .linkReadCompletion) ∨
          (r.purpose = .handOverHead ∧ c = .handOverHeadWriteCompletion) ∨
          (r.purpose = .postLink ∧ c = .postingLinkReadCompletion) ∨
          (r.purpose = .postHeadRead ∧ c = .postingHeadReadCompletion) ∨
          (r.purpose = .postHeadWrite true ∧ c = .postingHeadWriteCompletion) ∨
          (r.purpose = .reportWord true ∧ c = .reportWordCompletion) ∨
          (r.purpose = .txHead ∧ c = .transmitHeadReadCompletion) ∨
          (r.purpose = .txText ∧ c = .textReadCompletion) ∨
          (r.purpose = .txLink ∧ c = .transmitLinkReadCompletion) ∨
          (plainWrite r.purpose = true ∧ c = .internalWriteCompletion))))) ∧
  (∀ (h : HeldSetup) (n : LineNo) (mark : Bool) (l : LineUnit) (period : Nat),
    period = (if l.active.by8 then 8 else 1) *
      ((if l.active.divisor.toNat < 63 then 63 else l.active.divisor.toNat) + 1) →
    (l.tx.state = .off → cycleLine h n mark l = (l, [])) ∧
    (l.tx.state ≠ .off → l.divider + 1 < period → cycleLine h n mark l = ({ l with divider := l.divider + 1 }, [])) ∧
    (l.tx.state ≠ .off → period ≤ l.divider + 1 → cycleLine h n mark l = sampleTick h n mark { l with divider := 0 })) ∧
  (∀ (h : HeldSetup) (n : LineNo) (mark vote mixed : Bool) (l u : LineUnit) (evs : List Instr),
    sampleTick h n mark l = (u, evs) → (l.sampler.state = .inCharacter → l.sampler.sample ≤ 52) →
    (vote = true ↔ (l.recent.1 = true ∧ l.recent.2 = true) ∨ (mark = true ∧ (l.recent.1 = true ∨ l.recent.2 = true))) →
    (mixed = false ↔ l.recent.1 = mark ∧ l.recent.2 = mark) →
    ({ u with
        spaceRun := l.spaceRun, markRun := l.markRun, sampler := l.sampler, recent := l.recent
        rx := { u.rx with idleTimer := l.rx.idleTimer }
        tx := { u.tx with guardCount := l.tx.guardCount, backoffCount := l.tx.backoffCount,
                          answerCount := l.tx.answerCount, sending := l.tx.sending, send := l.tx.send } } = l ∧
      u.recent = (l.recent.2, mark)) ∧
    (u.spaceRun = (if mark then 0 else min 4096 (l.spaceRun + 1)) ∧
      u.markRun = (if mark then min 64 (l.markRun + 1) else 0) ∧
      (.breakDetection n ∈ evs ↔ mark = false ∧ l.spaceRun + 1 = 128) ∧
      (.loopOpen n ∈ evs ↔ mark = false ∧ l.spaceRun + 1 = 4096) ∧
      (.breakEnd n ∈ evs ↔ mark = true ∧ l.inBreak = true) ∧
      (.steadyMark n ∈ evs ↔ mark = true ∧ l.markRun + 1 = 64)) ∧
    ((l.sampler.state = .waitMark →
        u.sampler = if mark then { l.sampler with state := .waitStart } else l.sampler) ∧
      (l.sampler.state = .waitStart → u.sampler = l.sampler) ∧
      (.startEdge n ∈ evs ↔ l.sampler.state = .waitStart ∧ mark = false) ∧
      (l.sampler.state = .inCharacter →
        u.sampler = { l.sampler with
          sample := l.sampler.sample + 1
          noise := l.sampler.noise || (mixed && decide ((l.sampler.sample + 1) % 8 = 5 ∧
            ¬ (l.sampler.sample + 1 = 5 ∧ vote = true)))
          code := u.sampler.code } ∧
        ∀ b, b < 5 → u.sampler.code.getLsbD b =
          (l.sampler.code.getLsbD b || (vote && decide (l.sampler.sample + 1 = 8 * b + 13)))) ∧
      (∀ space, .falseStart n space ∈ evs ↔
        l.sampler.state = .inCharacter ∧ l.sampler.sample + 1 = 5 ∧ vote = true ∧ space = !mark) ∧
      (∀ code noise framing last, .characterCompletion n code noise framing last ∈ evs ↔
        l.sampler.state = .inCharacter ∧ l.sampler.sample + 1 = 53 ∧ code = l.sampler.code ∧
          noise = (l.sampler.noise || mixed) ∧ framing = !vote ∧ last = mark)) ∧
    (u.rx.idleTimer = l.rx.idleTimer.map (fun k => if mark then k + 1 else 0) ∧
      (.idleTimeoutExpiry n ∈ evs ↔ mark = true ∧ ∃ k, l.rx.idleTimer = some k ∧ 64 * h.idleTimeout ≤ k + 1)) ∧
    (∀ quiet : Bool, (quiet = true ↔ mark = true ∧ l.rx.state = .hunting ∧
        (l.sampler.state ≠ .inCharacter ∨ l.sampler.sample + 1 = 53 ∨ (l.sampler.sample + 1 = 5 ∧ vote = true))) →
      u.tx.guardCount = l.tx.guardCount.map (fun k => if quiet then k + 1 else k) ∧
      (.guardExpiry n ∈ evs ↔ quiet = true ∧ ∃ k, l.tx.guardCount = some k ∧ 64 * h.guardTime ≤ k + 1) ∧
      u.tx.backoffCount = l.tx.backoffCount.map (fun k => if quiet then k + 1 else k) ∧
      (.backoffExpiry n ∈ evs ↔ quiet = true ∧ ∃ k, l.tx.backoffCount = some k ∧ 64 * (n.val % 4 + 1) ≤ k + 1)) ∧
    (u.tx.answerCount = l.tx.answerCount.map (fun k => k + 1) ∧
      (.answerTimeoutExpiry n ∈ evs ↔ ∃ k, l.tx.answerCount = some k ∧ 64 * h.answerTimeout ≤ k + 1)) ∧
    ((l.tx.sending = none → u.tx.sending = none ∧ u.tx.send = l.tx.send) ∧
      (.frameStart n ∈ evs ↔ l.tx.sending = none ∧ hasNext l.tx = true) ∧
      (∀ kind i, l.tx.sending = some ⟨kind, i⟩ →
        (i + 1 < kind.length → u.tx.sending = some ⟨kind, i + 1⟩ ∧ u.tx.send = kind.level (i + 1)) ∧
        (kind.length ≤ i + 1 → u.tx.sending = some ⟨kind, i⟩ ∧ u.tx.send = l.tx.send)) ∧
      (.characterBoundary n ∈ evs ↔
        ∃ c stop i, l.tx.sending = some ⟨.frame c stop, i⟩ ∧ (SendKind.frame c stop).length ≤ i + 1) ∧
      (.preambleEnd n ∈ evs ↔ ∃ i, l.tx.sending = some ⟨.preamble, i⟩ ∧ 64 ≤ i + 1) ∧
      (.breakInEnd n ∈ evs ↔ ∃ i, l.tx.sending = some ⟨.breakIn, i⟩ ∧ 192 ≤ i + 1) ∧
      (.collision n ∈ evs ↔ vote = false ∧ l.active.type = .party ∧
        (l.tx.state = .preamble ∨ l.tx.state = .calling ∨ l.tx.state = .sending ∨ l.tx.state = .breakIn) ∧
        ∃ kind element, l.tx.sending = some ⟨kind, 8 * element + 4⟩ ∧ 8 * element + 8 ≤ kind.length ∧
          kind.level (8 * element + 5) = true)))

/-- R122, R131, R133: a free transmitter begins an owed preamble or break-in, then a code before the text, then the next
text byte. -/
def Obligations.FrameStart : Prop :=
  ∀ (s : State) (n : LineNo) (g : Transmitter → SendKind → Transmitter), Quiet s → s.lines[n].tx.state ≠ .off →
    s.lines[n].tx.sending = none →
    (∀ t k, g t k = { t with sending := some ⟨k, 0⟩, send := k == .preamble }) →
    (s.lines[n].tx.owed = some .preamble → exec (.frameStart n) s = .next (eventEnd
      { s with lines := s.lines.set n { s.lines[n] with
        tx := g { s.lines[n].tx with owed := none } .preamble } })) ∧
    (s.lines[n].tx.owed = some .breakIn → exec (.frameStart n) s = .next (eventEnd
      { s with lines := s.lines.set n { s.lines[n] with
        tx := g { s.lines[n].tx with owed := none } .breakIn } })) ∧
    (∀ c rest, s.lines[n].tx.owed = none → (s.lines[n].tx.state = .sending ∨ s.lines[n].tx.state = .calling) →
      s.lines[n].tx.opening = c :: rest → exec (.frameStart n) s = .next (eventEnd
        { s with lines := s.lines.set n { s.lines[n] with
          tx := g { s.lines[n].tx with opening := rest } (.frame c s.lines[n].active.stop) } })) ∧
    (∀ b b' rest, s.lines[n].tx.owed = none → s.lines[n].tx.state = .sending → s.lines[n].tx.opening = [] →
      s.lines[n].tx.lenKnown = true → s.lines[n].tx.holding = b :: b' :: rest → b.toNat < 32 ∨ b = 64 →
      b'.toNat < 32 ∨ b' = 64 → exec (.frameStart n) s = .next (eventEnd
        { s with lines := s.lines.set n { s.lines[n] with
          tx := g { s.lines[n].tx with holding := b' :: rest }
            (.frame (if b = 64 then s.office.held.substitute else b.setWidth 5) s.lines[n].active.stop) } }))

/-- R124, R137, R139, R144, R163: the end of a preamble, and of a break-in. The transmitter enters IDLE, or PAUSE in
break recovery; a party line with a queue goes to GUARD; after a preemptive break-in the next delivery is selected. With
stopping set the DISABLE takes effect at the end of the break-in (R125, R126). -/
def Obligations.PreambleAndBreakInEnd : Prop :=
  ∀ (s : State) (n : LineNo) (i : Nat) (c : Instr), Quiet s → s.lines[n].settingsPending = false →
    ((c = .preambleEnd n ∧ s.lines[n].tx.sending = some ⟨.preamble, i⟩) ∨
      (c = .breakInEnd n ∧ s.lines[n].tx.sending = some ⟨.breakIn, i⟩ ∧ s.lines[n].tx.stopping = false ∧
        s.lines[n].tx.breakInPending = false) →
      (s.lines[n].active.type = .pointToPoint → s.lines[n].recovery = true →
        exec c s = .next (eventEnd { s with lines := s.lines.set n { s.lines[n] with
          tx := { s.lines[n].tx with sending := none, send := true, state := .pause } } })) ∧
      (s.du.queues[n] = [] → (s.lines[n].active.type = .party ∨ s.lines[n].recovery = false) →
        exec c s = .next (eventEnd { s with lines := s.lines.set n { s.lines[n] with
          tx := { s.lines[n].tx with sending := none, send := true, state := .idle } } })) ∧
      (s.du.queues[n] ≠ [] → s.lines[n].active.type = .party → s.lines[n].tx.backingOff = false →
        exec c s = .next (eventEnd { s with lines := s.lines.set n { s.lines[n] with
          tx := { s.lines[n].tx with sending := none, send := true, state := .guarding, guardCount := some 0 } } }))) ∧
    (∀ d, c = .breakInEnd n → s.lines[n].tx.sending = some ⟨.breakIn, i⟩ → s.lines[n].tx.stopping = false →
      s.lines[n].tx.breakInPending = true → s.lines[n].active.type = .pointToPoint → s.lines[n].recovery = false →
      s.lines[n].tx.state = .breakIn → s.lines[n].faulted = false → s.office.holdLatch = false →
      s.du.active[n] = none → s.du.queues[n] = [d] →
      ∃ t, exec c s = .next t ∧ t.lines[n].tx.state = .sending ∧ t.lines[n].tx.breakInPending = false ∧
        t.lines[n].tx.textBegun = true ∧ (∃ h, t.lines[n].tx.hand = some h ∧ h.number = d) ∧
        t.du.entries[d].state = .active ∧ t.du.active[n] = some d ∧ t.du.queues[n] = [] ∧ t.store = s.store ∧
        t.pool = s.pool ∧ t.office = s.office) ∧
    (c = .breakInEnd n → s.lines[n].tx.sending = some ⟨.breakIn, i⟩ → s.lines[n].tx.stopping = true →
      s.lines[n].tx.hand = none → s.lines[n].rx.state = .hunting →
      ∃ t, exec c s = .next t ∧ Issuer.transmitter n ∉ t.port.waiting ∧
        SamePart { s with lines := s.lines.set n (offLine s.lines[n]) } t)

/-- R135 to R138, R151, R154, R161: the completion of CHARACTER_BOUNDARY, by what the boundary finds. The next code follows; after
the last character the delivery is DONE and the line idle; a cancel pending frees the delivery and a break-in begins; after
a call code that needs an answer the transmitter waits for it, and after one that needs none the member is answered and the
next member's LTRS begins at this tick (log 43), or, all being answered, the text is begun; with break-in pending the delivery goes back to the head of
its queue with DELIVERY INTERRUPTED 5 and the break-in begins; after a distant break it goes back with DELIVERY INTERRUPTED
3 and one more attempt, or is freed after two, and the line pauses. Where the entry is freed a walk may begin at this event,
and `WalksApart` says that it hands no message to the Router. The second part says which reports are attached to the head
rewrite of a freed entry, where it waits for the Store Port: DELIVERY DONE and, with cancel pending, CANCEL REFUSED 2 after
it; DELIVERY CANCELLED; DELIVERY FAILED 1 of the whole delivery, 255, after DELIVERY INTERRUPTED 3 (R110, R113, R114, R135).
With stopping set the DISABLE takes effect (R126): after the completion of the last character, else with the delivery back at
the head with DELIVERY INTERRUPTED 1, or cancelled; here with the receiver in HUNTING. That a read still outstanding at a
completion is dropped is the model's choice (log 46), and so is that a request is acted on at the boundary of a last frame not
yet known to be the last (log 50). -/
def Obligations.CharacterBoundary : Prop :=
  (∀ (s : State) (n : LineNo) (c0 : Code) (stop : StopLength) (i : Nat) (h : Hand) (k : TransitNo), Quiet s →
     s.lines[n].tx.sending = some ⟨.frame c0 stop, i⟩ → s.lines[n].tx.hand = some h → s.lines[n].tx.stopping = false →
     k = s.du.entries[h.number].transit → s.lines[n].settingsPending = false →
     s.lines[n].tx.owed = none →
     (∀ c rest, (s.lines[n].tx.state = .sending ∨ s.lines[n].tx.state = .calling) → s.lines[n].tx.opening = c :: rest →
       s.lines[n].tx.distantBreak = false → s.lines[n].tx.breakInPending = false →
       s.du.entries[h.number].cancelPending = false →
       exec (.characterBoundary n) s = .next (eventEnd { s with lines := s.lines.set n { s.lines[n] with
         tx := { s.lines[n].tx with opening := rest, sending := some ⟨.frame c s.lines[n].active.stop, 0⟩,
                                    send := false } } })) ∧
     (s.lines[n].tx.state = .sending → s.lines[n].tx.opening = [] → s.lines[n].tx.lenKnown = true →
       s.lines[n].tx.holding = [] → s.lines[n].tx.effLen ≤ s.lines[n].tx.readPos → s.lines[n].active.type = .pointToPoint →
       s.lines[n].recovery = false → s.du.queues[n] = [] → s.du.active[n] = some h.number →
       s.du.entries[h.number].line = n → WalksApart s →
       ∃ t, exec (.characterBoundary n) s = .next t ∧ t.lines[n].tx.state = .idle ∧ t.lines[n].tx.hand = none ∧
         t.lines[n].tx.sending = none ∧ t.lines[n].tx.send = true ∧ t.du.active[n] = none ∧
         t.du.entries[h.number].state = .free ∧
         t.du.transit[k].outstanding = s.du.transit[k].outstanding - 1 ∧ t.store = s.store ∧ t.router = s.router) ∧
     (s.lines[n].tx.state = .sending → s.lines[n].tx.opening ≠ [] → s.lines[n].tx.distantBreak = false →
       s.du.entries[h.number].cancelPending = true → s.du.active[n] = some h.number → s.du.entries[h.number].line = n →
       WalksApart s →
       ∃ t, exec (.characterBoundary n) s = .next t ∧ t.lines[n].tx.state = .breakIn ∧ t.lines[n].tx.hand = none ∧
         t.lines[n].tx.sending = some ⟨.breakIn, 0⟩ ∧ t.lines[n].tx.send = false ∧ t.du.active[n] = none ∧
         t.du.entries[h.number].state = .free ∧ t.du.entries[h.number].cancelPending = false ∧
         t.du.transit[k].outstanding = s.du.transit[k].outstanding - 1 ∧ t.store = s.store ∧ t.router = s.router) ∧
     (∀ m pos, s.lines[n].tx.state = .calling → s.lines[n].tx.opening = [] → s.lines[n].tx.callPos = some pos →
       h.callSet[pos - 1]? = some m → m.confirm = true → s.lines[n].tx.breakInPending = false →
       s.lines[n].active.type = .party → s.du.entries[h.number].cancelPending = false →
       exec (.characterBoundary n) s = .next (eventEnd { s with lines := s.lines.set n { s.lines[n] with
         tx := { s.lines[n].tx with state := .answerWait, sending := none, send := true, answerCount := some 0,
                                    answerWindow := [] } } })) ∧
     (∀ (m x : Member) (front back : List Member) (pos : Nat), s.lines[n].tx.state = .calling →
       s.lines[n].tx.opening = [] → s.lines[n].tx.callPos = some pos → h.callSet[pos - 1]? = some m →
       m.confirm = false → s.lines[n].tx.breakInPending = false → s.lines[n].active.type = .party →
       s.du.entries[h.number].cancelPending = false → s.du.entries[h.number].callSet = front ++ x :: back →
       front.length = pos - 1 →
       (∀ next : Member, h.callSet[pos]? = some next →
         exec (.characterBoundary n) s = .next (eventEnd { s with
           du := { s.du with entries := s.du.entries.set h.number { s.du.entries[h.number] with
             callSet := front ++ { x with answered := true } :: back } }
           lines := s.lines.set n { s.lines[n] with tx := { s.lines[n].tx with
             callPos := some (pos + 1), answerCount := none, answerWindow := [],
             opening := [next.callCode.extractLsb' 5 5, next.callCode.extractLsb' 0 5],
             sending := some ⟨.frame s.office.held.ltrs s.lines[n].active.stop, 0⟩, send := false } } })) ∧
       (h.callSet.length ≤ pos → (∀ y ∈ front ++ back, y.answered = true) → s.lines[n].tx.out = [] → Room 2 s →
         ∃ t, exec (.characterBoundary n) s = .next t ∧
           SamePart { s with
             du := { s.du with entries := s.du.entries.set h.number { s.du.entries[h.number] with
               callSet := front ++ { x with answered := true } :: back } }
             lines := s.lines.set n { s.lines[n] with tx := { s.lines[n].tx with
               state := .sending, sending := none, send := true, textBegun := true, holding := [], readPos := 0,
               effLen := 0, lenKnown := false, curBlock := h.first, curIndex := 0,
               opening := s.office.held.ltrs :: (if h.repeatFlag then s.office.held.repeatNotice else []),
               callPos := none, answerCount := none, answerWindow := [], live := s.lines[n].tx.live + 2 } } } t ∧
           requests t = requests s ++
             [readReq (blockWord s h.first 1) (.transmitter n) .txHead,
              readReq (blockWord s h.first 16) (.transmitter n) .txText])) ∧
     (∀ tx : Transmitter, s.du.entries[h.number].cancelPending = false → s.du.active[n] = some h.number →
       s.du.entries[h.number].line = n →
       (s.lines[n].tx.state = .calling ∨
         (s.lines[n].tx.state = .sending ∧
           (s.lines[n].tx.opening ≠ [] ∨ s.lines[n].tx.readPos < s.lines[n].tx.effLen))) →
       tx = { s.lines[n].tx with
         hand := none, textBegun := false, holding := [], opening := [], lenKnown := false, callPos := none,
         answerCount := none, answerWindow := [], out := [], stale := s.lines[n].tx.stale + s.lines[n].tx.live, live := 0 } →
       (s.lines[n].tx.breakInPending = true → s.du.rewrites = [] →
         (s.lines[n].active.type = .party ∨ s.lines[n].tx.distantBreak = false) →
         ∃ t, exec (.characterBoundary n) s = .next t ∧
           Offers (plainReport .deliveryInterrupted n.val (BitVec.ofNat 16 h.number.val) 5 s.office.clock)
             { s with
               du := { s.du with
                 entries := s.du.entries.set h.number { s.du.entries[h.number] with
                   state := .queued, repeatFlag := s.du.entries[h.number].repeatFlag || s.lines[n].tx.textBegun }
                 queues := s.du.queues.set n (h.number :: s.du.queues[n])
                 active := s.du.active.set n none }
               lines := s.lines.set n { s.lines[n] with tx := { tx with
                 state := .breakIn, sending := some ⟨.breakIn, 0⟩, send := false } } } t) ∧
       (s.lines[n].tx.distantBreak = true → s.lines[n].active.type = .pointToPoint → s.lines[n].recovery = true →
         (s.du.entries[h.number].attempts < 2 → s.du.rewrites = [] →
           ∃ t, exec (.characterBoundary n) s = .next t ∧
             Offers (plainReport .deliveryInterrupted n.val (BitVec.ofNat 16 h.number.val) 3 s.office.clock)
               { s with
                 du := { s.du with
                   entries := s.du.entries.set h.number { s.du.entries[h.number] with
                     state := .queued, attempts := s.du.entries[h.number].attempts + 1,
                     repeatFlag := s.du.entries[h.number].repeatFlag || s.lines[n].tx.textBegun }
                   queues := s.du.queues.set n (h.number :: s.du.queues[n])
                   active := s.du.active.set n none }
                 lines := s.lines.set n { s.lines[n] with tx := { tx with
                   state := .pause, sending := none, send := true, distantBreak := false, breakInPending := false } } } t) ∧
         (2 ≤ s.du.entries[h.number].attempts → WalksApart s →
           ∃ t, exec (.characterBoundary n) s = .next t ∧ t.lines[n].tx.state = .pause ∧ t.lines[n].tx.hand = none ∧
             t.lines[n].tx.sending = none ∧ t.lines[n].tx.send = true ∧ t.lines[n].tx.distantBreak = false ∧
             t.du.active[n] = none ∧ t.du.entries[h.number].state = .free ∧
             t.du.transit[k].outstanding = s.du.transit[k].outstanding - 1 ∧ t.store = s.store ∧ t.router = s.router)))) ∧
  (∀ (s : State) (n : LineNo) (c0 : Code) (stop : StopLength) (i : Nat) (h : Hand) (k : TransitNo) (count : Nat)
     (tx : Transmitter) (cancelled : List Record), Quiet s →
     s.lines[n].tx.sending = some ⟨.frame c0 stop, i⟩ → s.lines[n].tx.hand = some h → s.lines[n].tx.owed = none →
     s.lines[n].settingsPending = false → k = s.du.entries[h.number].transit → s.du.active[n] = some h.number →
     s.du.entries[h.number].line = n → s.du.transit[k].outstanding = count + 1 →
     tx = { s.lines[n].tx with
       sending := none, send := true, hand := none, textBegun := false, holding := [], opening := [], lenKnown := false,
       callPos := none, answerCount := none, answerWindow := [], out := [],
       stale := s.lines[n].tx.stale + s.lines[n].tx.live, live := 0 } →
     cancelled = [plainReport .deliveryCancelled n.val (BitVec.ofNat 16 h.number.val) (BitVec.ofNat 16 k.val)
       s.office.clock] →
     (∀ done : List Record, s.port.waiting ≠ [] → s.lines[n].tx.state = .sending → s.lines[n].tx.opening = [] →
       s.lines[n].tx.lenKnown = true → s.lines[n].tx.holding = [] → s.lines[n].tx.effLen ≤ s.lines[n].tx.readPos →
       done = plainReport .deliveryDone n.val (BitVec.ofNat 16 h.number.val) (BitVec.ofNat 16 k.val) s.office.clock ::
         (if s.du.entries[h.number].cancelPending then
           [plainReport .cancelRefused n.val (BitVec.ofNat 16 h.number.val) 2 s.office.clock] else []) →
       (∀ u : Transmitter, s.lines[n].tx.stopping = false →
         (s.du.queues[n] = [] ∧ (s.lines[n].active.type = .party ∨ s.lines[n].recovery = false) ∧
             u = { tx with state := .idle, distantBreak := false, breakInPending := false }) ∨
           (s.lines[n].active.type = .pointToPoint ∧ s.lines[n].recovery = true ∧
             u = { tx with state := .pause, distantBreak := false, breakInPending := false }) ∨
           (s.lines[n].active.type = .party ∧ s.lines[n].tx.backingOff = false ∧
             (∃ d ∈ s.du.queues[n], d ≠ h.number) ∧
             u = { tx with
               state := .guarding, guardCount := some 0, distantBreak := false, breakInPending := false }) →
         ∃ t, exec (.characterBoundary n) s = .next t ∧
           SamePart { s with
             du := freedDelivery s n h.number count done
             lines := s.lines.set n { s.lines[n] with tx := u } } t) ∧
       (s.lines[n].tx.stopping = true → s.lines[n].rx.state = .hunting →
         ∃ t, exec (.characterBoundary n) s = .next t ∧ Issuer.transmitter n ∉ t.port.waiting ∧
           SamePart { s with
             du := freedDelivery s n h.number count done
             lines := s.lines.set n (offLine s.lines[n]) } t)) ∧
     ((s.lines[n].tx.state = .calling ∨ (s.lines[n].tx.state = .sending ∧
         (s.lines[n].tx.opening ≠ [] ∨ s.lines[n].tx.lenKnown = false ∨ s.lines[n].tx.holding ≠ [] ∨
           s.lines[n].tx.readPos < s.lines[n].tx.effLen))) →
       (∀ u : Transmitter, s.port.waiting ≠ [] → s.lines[n].tx.stopping = false →
         s.du.entries[h.number].cancelPending = true →
         ((s.lines[n].active.type = .party ∨ s.lines[n].tx.distantBreak = false) ∧
             u = { tx with state := .breakIn, sending := some ⟨.breakIn, 0⟩, send := false }) ∨
           (s.lines[n].active.type = .pointToPoint ∧ s.lines[n].tx.distantBreak = true ∧ s.lines[n].recovery = true ∧
             u = { tx with state := .pause, distantBreak := false, breakInPending := false }) →
         ∃ t, exec (.characterBoundary n) s = .next t ∧
           SamePart { s with
             du := freedDelivery s n h.number count cancelled
             lines := s.lines.set n { s.lines[n] with tx := u } } t) ∧
       (s.port.waiting ≠ [] → s.lines[n].tx.stopping = false → s.du.entries[h.number].cancelPending = false →
         s.lines[n].active.type = .pointToPoint → s.lines[n].tx.distantBreak = true → s.lines[n].recovery = true →
         2 ≤ s.du.entries[h.number].attempts → s.du.rewrites = [] →
         ∃ t, exec (.characterBoundary n) s = .next t ∧
           Offers (plainReport .deliveryInterrupted n.val (BitVec.ofNat 16 h.number.val) 3 s.office.clock)
             { s with
               du := freedDelivery s n h.number count
                 [plainReport .deliveryFailed n.val (BitVec.ofNat 16 h.number.val) (255#8 ++ 1#8) s.office.clock]
               lines := s.lines.set n { s.lines[n] with tx := { tx with
                 state := .pause, distantBreak := false, breakInPending := false } } } t) ∧
       (s.lines[n].tx.stopping = true → s.lines[n].rx.state = .hunting →
         (s.du.entries[h.number].cancelPending = false → s.du.rewrites = [] →
           ∃ t, exec (.characterBoundary n) s = .next t ∧ Issuer.transmitter n ∉ t.port.waiting ∧
             Offers (plainReport .deliveryInterrupted n.val (BitVec.ofNat 16 h.number.val) 1 s.office.clock)
               { s with
                 du := { s.du with
                   entries := s.du.entries.set h.number { s.du.entries[h.number] with
                     state := .queued, repeatFlag := s.du.entries[h.number].repeatFlag || s.lines[n].tx.textBegun }
                   queues := s.du.queues.set n (h.number :: s.du.queues[n])
                   active := s.du.active.set n none }
                 lines := s.lines.set n (offLine s.lines[n]) } t) ∧
         (s.port.waiting ≠ [] → s.du.entries[h.number].cancelPending = true →
           ∃ t, exec (.characterBoundary n) s = .next t ∧ Issuer.transmitter n ∉ t.port.waiting ∧
             SamePart { s with
               du := freedDelivery s n h.number count cancelled
               lines := s.lines.set n (offLine s.lines[n]) } t))))

/-- R126, R131, R132: a transmitter's read completes. The head read sets the effective length, a text read brings the two
bytes of its word, a link read the next block or the end of the text; a discarded read (R126, R137) changes nothing at the
transmitter but the count of those still to come, which is the model's own (log 31). -/
def Obligations.TransmitReads : Prop :=
  ∀ (s : State) (n : LineNo) (a : Addr) (p : Purpose) (v : Word) (c : Instr), Quiet s →
    ((p = .txHead ∧ c = .transmitHeadReadCompletion) ∨ (p = .txText ∧ c = .textReadCompletion) ∨
      (p = .txLink ∧ c = .transmitLinkReadCompletion)) →
    Serving (readReq a (.transmitter n) p) s → v = s.store.readWord a →
    (0 < s.lines[n].tx.stale → exec c s = .next (eventEnd
      { ended s with lines := s.lines.set n { s.lines[n] with
        tx := { s.lines[n].tx with stale := s.lines[n].tx.stale - 1 } } })) ∧
    (s.lines[n].tx.stale = 0 → s.lines[n].tx.sending ≠ none →
      (p = .txHead → (∀ b ∈ s.lines[n].tx.holding.head?, b.toNat < 32 ∨ b = 64) →
        (s.lines[n].tx.holding ≠ [] ∨ s.lines[n].tx.out ≠ [] ∨ 1 < s.lines[n].tx.live) →
        exec c s = .next (eventEnd { ended s with lines := s.lines.set n { s.lines[n] with
          tx := { s.lines[n].tx with live := s.lines[n].tx.live - 1, effLen := min v.toNat 3938, lenKnown := true } } })) ∧
      (p = .txText → s.lines[n].tx.holding = [] → s.lines[n].tx.readPos + 1 < s.lines[n].tx.effLen →
        ((v.extractLsb' 0 8).toNat < 32 ∨ v.extractLsb' 0 8 = 64) →
        exec c s = .next (eventEnd { ended s with lines := s.lines.set n { s.lines[n] with
          tx := { s.lines[n].tx with
            live := s.lines[n].tx.live - 1, readPos := s.lines[n].tx.readPos + 2
            holding := [v.extractLsb' 0 8, v.extractLsb' 8 8] } } })) ∧
      (p = .txLink → s.lines[n].tx.holding = [] → s.office.held.poolBlocks ≤ v.toNat →
        exec c s = .next (eventEnd { ended s with lines := s.lines.set n { s.lines[n] with
          tx := { s.lines[n].tx with live := s.lines[n].tx.live - 1, effLen := s.lines[n].tx.readPos } } })) ∧
      (p = .txLink → s.lines[n].tx.holding = [] → v.toNat < s.office.held.poolBlocks → s.lines[n].tx.state = .sending →
        s.lines[n].tx.out = [] → s.lines[n].tx.live = 1 → s.lines[n].tx.lenKnown = true →
        s.lines[n].tx.readPos < s.lines[n].tx.effLen →
        chainIndex s.lines[n].tx.readPos = s.lines[n].tx.curIndex + 1 → Room 1 s →
        ∃ t, exec c s = .next t ∧
          SamePart { s with lines := s.lines.set n { s.lines[n] with
            tx := { s.lines[n].tx with curBlock := v.toNat, curIndex := s.lines[n].tx.curIndex + 1 } } } t ∧
          requests t = s.port.queue ++
            [readReq (blockWord s v.toNat (textWord s.lines[n].tx.readPos)) (.transmitter n) .txText]))

/-- R146, R150: the guard expires, and the backoff. With no work the line is IDLE again; a selected delivery with a call
set begins CALLING its first member; the backoff's end lets an IDLE line guard its queue. The expiry of an older count that a
collision has started anew changes nothing but the model's void mark (R55; log 47). -/
def Obligations.GuardAndBackoff : Prop :=
  ∀ (s : State) (n : LineNo), Quiet s → s.lines[n].active.type = .party → s.lines[n].settingsPending = false →
    (s.lines[n].tx.state = .guarding → s.du.queues[n] = [] →
      exec (.guardExpiry n) s = .next (eventEnd { s with lines := s.lines.set n { s.lines[n] with
        tx := { s.lines[n].tx with guardCount := none, state := .idle, send := true } } })) ∧
    (∀ d m ms, s.lines[n].tx.state = .guarding → s.du.queues[n] = [d] → s.lines[n].tx.stopping = false →
      s.lines[n].tx.backingOff = false → s.office.holdLatch = false → s.du.active[n] = none →
      s.du.entries[d].callSet = m :: ms →
      exec (.guardExpiry n) s = .next (eventEnd { s with
        du := { s.du with
          entries := s.du.entries.set d { s.du.entries[d] with
            state := .active, callSet := (m :: ms).map (fun x => { x with answered := false }) }
          queues := s.du.queues.set n []
          active := s.du.active.set n (some d) }
        lines := s.lines.set n { s.lines[n] with
          tx := { s.lines[n].tx with
            state := .calling, guardCount := none, textBegun := false, callPos := some 1, answerCount := none,
            answerWindow := [],
            hand := some { number := d, first := s.du.transit[s.du.entries[d].transit].first,
                           callSet := (m :: ms).map (fun x => { x with answered := false }),
                           repeatFlag := s.du.entries[d].repeatFlag },
            opening := [s.office.held.ltrs, m.callCode.extractLsb' 5 5, m.callCode.extractLsb' 0 5] } } })) ∧
    (s.lines[n].tx.backingOff = true → s.lines[n].tx.backoffVoid = true →
      exec (.backoffExpiry n) s = .next (eventEnd { s with lines := s.lines.set n { s.lines[n] with
        tx := { s.lines[n].tx with backoffVoid := false } } })) ∧
    (s.lines[n].tx.backingOff = true → s.lines[n].tx.backoffVoid = false → s.lines[n].tx.state = .idle →
      s.du.queues[n] ≠ [] →
      exec (.backoffExpiry n) s = .next (eventEnd { s with lines := s.lines.set n { s.lines[n] with
        tx := { s.lines[n].tx with backingOff := false, backoffCount := none, state := .guarding, guardCount := some 0,
                                   send := true } } })) ∧
    (s.lines[n].tx.backingOff = true → s.lines[n].tx.backoffVoid = false →
      (s.lines[n].tx.state ≠ .idle ∨ s.du.queues[n] = []) →
      exec (.backoffExpiry n) s = .next (eventEnd { s with lines := s.lines.set n { s.lines[n] with
        tx := { s.lines[n].tx with backingOff := false, backoffCount := none } } }))

/-- R111, R153 to R156: the answer timeout. A further member is called; with none left and none answered the try is set
aside, WAITING for its retry time, and a break-in is owed. With some answered and some not the text begins, and the members
without an answer are split off into the lowest FREE entry, WAITING with one attempt more, with STATION UNANSWERED; after
two attempts, or with no FREE entry, each is failed instead (stated for one). That the split entry stands in no queue is
Table 8-2's reading (log 39). That the rewrite stands before the transmitter's two reads and the report words after them is
the model's choice (log 48): R9 lets requests of different issuers come between one another, and no rule orders them here. -/
def Obligations.AnswerTimeout : Prop :=
  ∀ (s : State) (n : LineNo) (h : Hand) (pos : Nat), Quiet s → s.lines[n].tx.state = .answerWait →
    s.lines[n].tx.hand = some h → s.lines[n].tx.callPos = some pos →
    (∀ m, h.callSet[pos]? = some m → exec (.answerTimeoutExpiry n) s = .next (eventEnd
      { s with lines := s.lines.set n { s.lines[n] with tx := { s.lines[n].tx with
          state := .calling, callPos := some (pos + 1), answerCount := none, answerWindow := [],
          opening := [s.office.held.ltrs, m.callCode.extractLsb' 5 5, m.callCode.extractLsb' 0 5] } } })) ∧
    (h.callSet.length ≤ pos → s.du.entries[h.number].callSet ≠ [] →
      (∀ m ∈ s.du.entries[h.number].callSet, m.answered = false) → s.du.entries[h.number].cancelPending = false →
      s.du.entries[h.number].attempts < 2 → s.du.entries[h.number].line = n → s.du.active[n] = some h.number →
      ∃ t, exec (.answerTimeoutExpiry n) s = .next t ∧
        SamePart { s with
          du := { s.du with
            entries := s.du.entries.set h.number { s.du.entries[h.number] with
              state := .waiting, attempts := s.du.entries[h.number].attempts + 1,
              retryTime := s.office.clock +
                BitVec.ofNat 32 (s.office.held.retry * (s.du.entries[h.number].attempts + 1)) }
            active := s.du.active.set n none }
          lines := s.lines.set n { s.lines[n] with tx := { s.lines[n].tx with
            state := .breakIn, owed := some .breakIn, send := true, hand := none, textBegun := false, holding := [],
            opening := [], lenKnown := false, callPos := none, answerCount := none, answerWindow := [], out := [],
            stale := s.lines[n].tx.stale + s.lines[n].tx.live, live := 0 } } } t) ∧
    (∀ (d : Delivery) (lost : List Member) (tx : Transmitter) (reads : List Req), h.callSet.length ≤ pos →
      d = s.du.entries[h.number] → lost = d.callSet.filter (fun m => !m.answered) → lost ≠ [] →
      (∃ m ∈ d.callSet, m.answered = true) → d.state = .active → s.du.rewrites = [] → s.lines[n].tx.out = [] →
      tx = { s.lines[n].tx with
        state := .sending, textBegun := true, holding := [], readPos := 0, effLen := 0, lenKnown := false,
        curBlock := h.first, curIndex := 0,
        opening := s.office.held.ltrs :: (if h.repeatFlag then s.office.held.repeatNotice else []),
        callPos := none, answerCount := none, answerWindow := [], live := s.lines[n].tx.live + 2 } →
      reads = [readReq (blockWord s h.first 1) (.transmitter n) .txHead,
        readReq (blockWord s h.first 16) (.transmitter n) .txText] →
      (∀ k : DeliveryNo, d.attempts < 2 → s.du.entries[k].state = .free →
        (∀ j : DeliveryNo, j < k → s.du.entries[j].state ≠ .free) → Room 7 s → RingRoom 1 s →
        ∃ t, exec (.answerTimeoutExpiry n) s = .next t ∧
          SamePart { s with
            du := { s.du with
              entries := (s.du.entries.set h.number { d with callSet := d.callSet.filter (fun m => m.answered) }).set k
                { state := .waiting, transit := d.transit, line := d.line, cls := d.cls, queuedTime := d.queuedTime,
                  attempts := d.attempts + 1, repeatFlag := false,
                  retryTime := s.office.clock + BitVec.ofNat 32 (s.office.held.retry * (d.attempts + 1)),
                  cancelPending := false, callSet := lost }
              transit := s.du.transit.set d.transit { s.du.transit[d.transit] with
                outstanding := s.du.transit[d.transit].outstanding + 1 } }
            lines := s.lines.set n { s.lines[n] with tx := tx } } t ∧
          t.report.fill = s.report.fill + 1 ∧
          requests t = requests s ++
            byteReq (blockWord s s.du.transit[d.transit].first 6) true
              (BitVec.ofNat 8 (s.du.transit[d.transit].outstanding + 1)) .delivery .rewrite ::
              (reads ++ reportWords s s.report.fill (plainReport .stationUnanswered d.line.val (BitVec.ofNat 16 k.val)
                (BitVec.ofNat 8 lost.length ++ BitVec.ofNat 8 h.number.val) s.office.clock))) ∧
      (∀ (m : Member) (reason : Nat), lost = [m] → Room 6 s → RingRoom 1 s →
        (2 ≤ d.attempts ∧ reason = 2) ∨
          (d.attempts < 2 ∧ (∀ k : DeliveryNo, s.du.entries[k].state ≠ .free) ∧ reason = 3) →
        ∃ t, exec (.answerTimeoutExpiry n) s = .next t ∧
          SamePart { s with
            du := { s.du with
              entries := s.du.entries.set h.number { d with callSet := d.callSet.filter (fun m => m.answered) } }
            lines := s.lines.set n { s.lines[n] with tx := tx } } t ∧
          t.report.fill = s.report.fill + 1 ∧
          requests t = requests s ++ reads ++
            reportWords s s.report.fill (plainReport .deliveryFailed d.line.val (BitVec.ofNat 16 h.number.val)
              (BitVec.ofNat 8 m.station.val ++ BitVec.ofNat 8 reason) s.office.clock)))

/-- R149: a collision. The sending is abandoned, a delivery in hand goes back to the head of the queue with DELIVERY
INTERRUPTED 4, and the line backs off in IDLE, its count from 0 also where an older backoff still runs (R150); an older count
at its length whose expiry is not yet taken leaves that expiry void (R55; the model's mark, log 47). -/
def Obligations.Collision : Prop :=
  ∀ (s : State) (n : LineNo) (l : LineUnit) (void : Bool), Quiet s → s.lines[n].active.type = .party →
    s.lines[n].tx.sending ≠ none → s.lines[n].settingsPending = false → s.lines[n].tx.stopping = false →
    (void = true ↔ s.lines[n].tx.backoffVoid = true ∨
      (s.lines[n].tx.backingOff = true ∧ ∃ k, s.lines[n].tx.backoffCount = some k ∧ 64 * (n.val % 4 + 1) ≤ k)) →
    l = { s.lines[n] with tx := { s.lines[n].tx with
      sending := none, send := true, state := .idle, hand := none, textBegun := false, holding := [], opening := [],
      lenKnown := false, callPos := none, answerCount := none, answerWindow := [], out := [],
      stale := s.lines[n].tx.stale + s.lines[n].tx.live, live := 0, owed := none, breakInPending := false,
      backingOff := true, backoffCount := some 0, backoffVoid := void } } →
    ((s.lines[n].tx.state = .preamble ∨ s.lines[n].tx.state = .breakIn) → s.lines[n].tx.hand = none →
      ∃ t, exec (.collision n) s = .next t ∧ SamePart { s with lines := s.lines.set n l } t ∧
        requests t = requests s) ∧
    (∀ h, (s.lines[n].tx.state = .calling ∨ s.lines[n].tx.state = .sending) → s.lines[n].tx.hand = some h →
      s.du.entries[h.number].cancelPending = false → s.du.entries[h.number].line = n → s.du.active[n] = some h.number →
      s.du.rewrites = [] →
      ∃ t, exec (.collision n) s = .next t ∧
        Offers (plainReport .deliveryInterrupted n.val (BitVec.ofNat 16 h.number.val) 4 s.office.clock)
          { s with
            du := { s.du with
              entries := s.du.entries.set h.number { s.du.entries[h.number] with
                state := .queued, repeatFlag := s.du.entries[h.number].repeatFlag || s.lines[n].tx.textBegun }
              queues := s.du.queues.set n (h.number :: s.du.queues[n])
              active := s.du.active.set n none }
            lines := s.lines.set n l } t)

/-! ## Office hold -/

/-- R164, R165, R169: an assertion of HOLD sets the latch in every office state, here where the office is not RUNNING or the
latch already set. RESUME clears the latch unless HOLD is still asserted, and while RUNNING offers HOLD RESUMED and puts
every HELD line in PREAMBLE with a preamble owed. -/
def Obligations.HoldLatchAndResume : Prop :=
  (∀ s : State, Quiet s →
    (s.office.holdLatch = true →
      exec .holdLatching s = .next (eventEnd { s with pins := { s.pins with hold := true } })) ∧
    (s.office.holdLatch = false → running s = false →
      exec .holdLatching s = .next (eventEnd
        { s with pins := { s.pins with hold := true }, office := { s.office with holdLatch := true } }))) ∧
  (∀ s : State, Accessible s →
    (s.pins.hold = true → exec (.resume .both true) s = .next (eventEnd (forward (pageWrite s 20 2 .both)
      { s with office := { s.office with holdStill := true } }))) ∧
    (s.office.holdLatch = false ∨ running s = false →
      exec (.resume .both false) s = .next (eventEnd (forward (pageWrite s 20 2 .both)
        { s with pins := { s.pins with hold := false }
                 office := { s.office with holdStill := false, holdLatch := false } }))) ∧
    (s.office.holdLatch = true → running s = true → (∀ n : LineNo, s.lines[n].tx.state ≠ .held) →
      ∃ t, exec (.resume .both false) s = .next t ∧ Forwards (pageWrite s 20 2 .both) t ∧
        Offers (plainReport .holdResumed 31 65535 0 s.office.clock)
          { s with pins := { s.pins with hold := false }
                   office := { s.office with holdStill := false, holdLatch := false } } t) ∧
    (s.office.holdLatch = true → running s = true →
      ∃ t, exec (.resume .both false) s = .next t ∧ Forwards (pageWrite s 20 2 .both) t ∧
        Offers (plainReport .holdResumed 31 65535 0 s.office.clock)
          { s with pins := { s.pins with hold := false }
                   office := { s.office with holdStill := false, holdLatch := false }
                   lines := s.lines.map (fun l =>
                     if l.tx.state = .held then
                       { l with tx := { l.tx with state := .preamble, owed := some .preamble, send := true } }
                     else l) } t))

/-- R166: the latching event while RUNNING puts every transmitter in HELD or OFF, with no delivery in hand, nothing owed
and nothing being sent. R164, R167: HOLD LATCHED is offered, and a delivery in hand (stated for one) goes back to the head of
its queue with DELIVERY INTERRUPTED 6, or is freed as a cancel; here no stopping line has a message or settings pending. HOLD
LATCHED and DELIVERY INTERRUPTED, reports of different owners handed over at one event, stand in either order (R167, R187);
which of the two, and the order of the lines, are the model's free values (logs 14 and 49). -/
def Obligations.HoldStopsEveryLine : Prop :=
  (∀ s : State, s.resetIn = false → running s = true → s.office.holdLatch = false →
    (∀ n : LineNo, s.lines[n].tx.state = .off → s.lines[n].tx.hand = none ∧ s.lines[n].tx.sending = none ∧
      s.lines[n].tx.owed = none ∧ s.lines[n].tx.send = true) →
    ∃ t, exec .holdLatching s = .next t ∧ t.office.holdLatch = true ∧ t.report.attn = true ∧ t.store = s.store ∧
      ∀ n : LineNo, (t.lines[n].tx.state = .held ∨ t.lines[n].tx.state = .off) ∧ t.lines[n].tx.hand = none ∧
        t.lines[n].tx.sending = none ∧ t.lines[n].tx.owed = none ∧ t.lines[n].tx.send = true) ∧
  (∀ (s e : State), Quiet s → running s = true → s.office.holdLatch = false →
    (∀ n : LineNo, s.lines[n].tx.stopping = true → s.lines[n].rx.state = .hunting ∧ s.lines[n].settingsPending = false) →
    e = { s with
      pins := { s.pins with hold := true }, office := { s.office with holdLatch := true }
      freeCount := s.freeCount + 1, lines := s.lines.map latchedLine } →
    ((∀ n : LineNo, s.lines[n].tx.hand = none) →
      ∃ t, exec .holdLatching s = .next t ∧ Offers (plainReport .holdLatched 31 65535 0 s.office.clock) e t) ∧
    (∀ (n : LineNo) (h : Hand), s.lines[n].tx.state ≠ .off → s.lines[n].tx.hand = some h →
      (∀ m : LineNo, m ≠ n → s.lines[m].tx.hand = none) → s.du.entries[h.number].line = n →
      s.du.active[n] = some h.number →
      (s.du.entries[h.number].cancelPending = false → s.du.rewrites = [] → Room 8 s → RingRoom 2 s →
        ∃ t, exec .holdLatching s = .next t ∧
          SamePart { e with
            freeCount := s.freeCount + 2, du := interruptedDelivery s n h.number s.lines[n].tx.textBegun } t ∧
          t.report.fill = s.report.fill + 2 ∧
          ∃ r1 r2, [r1, r2].Perm [plainReport .holdLatched 31 65535 0 s.office.clock,
              plainReport .deliveryInterrupted n.val (BitVec.ofNat 16 h.number.val) 6 s.office.clock] ∧
            requests t = requests s ++ reportWords s s.report.fill r1 ++ reportWords s (s.report.fill + 1) r2) ∧
      (∀ count, s.du.entries[h.number].cancelPending = true →
        (∃ i ∈ s.port.waiting, ∀ m : LineNo, i ≠ .transmitter m ∧ i ≠ .receiver m) →
        s.du.transit[s.du.entries[h.number].transit].outstanding = count + 1 →
        ∃ t, exec .holdLatching s = .next t ∧
          Offers (plainReport .holdLatched 31 65535 0 s.office.clock)
            { e with du := freedDelivery s n h.number count [plainReport .deliveryCancelled n.val
              (BitVec.ofNat 16 h.number.val) (BitVec.ofNat 16 s.du.entries[h.number].transit.val) s.office.clock] } t)))

/-! ## Reports -/

/-- R182, R183: an offer that is taken below the ring size is accepted at the fill index, else it is discarded and counted,
and every other part of the machine is as it was. With room in the queue a record's four words are offered in order, each to its
place in the slot of its index; the write index rises when the cycle of word 3 completes. R187 with Tables 11-1 and 12-9: the
four words of a record, bit by bit. R167, R182, R187: the offers of one event are taken one after the other, those of one owner in
the order in which they were made, those of different owners in either order, which is the model's free value (log 49), but
that a report which waited on a head rewrite comes after HOLD LATCHED. R177: those that a placement handed over before a walk
request are taken before that walk begins, and the others at the latest as the event ends. -/
def Obligations.ReportUnit : Prop :=
  (∀ (r : Record) (s : State),
     SamePart s (takeReport r s) ∧ (takeReport r s).report.read = s.report.read ∧
     (takeReport r s).report.write = s.report.write ∧ (takeReport r s).report.badRead = s.report.badRead ∧
     (takeReport r s).report.offers = s.report.offers ∧
     (heldCount s < ringSize s →
       (takeReport r s).report.fill = s.report.fill + 1 ∧ (takeReport r s).report.overflow = s.report.overflow ∧
       (takeReport r s).report.tally = s.report.tally ∧
       (takeReport r s).report.records <:+ s.report.records ++ [(s.report.fill, r)]) ∧
     (ringSize s ≤ heldCount s →
       (takeReport r s).report.fill = s.report.fill ∧ (takeReport r s).report.overflow = true ∧
       (takeReport r s).report.tally = min 255 (s.report.tally + 1) ∧
       (takeReport r s).report.records <:+ s.report.records)) ∧
  ((∀ (r : Record) (s : State), s.report.records = [] → s.report.wordNext = 0 → heldCount s < ringSize s → Room 4 s →
     (takeReport r s).report.records = [] ∧
     requests (takeReport r s) = requests s ++ (List.range 4).map (fun w =>
       wordReq (BitVec.ofNat 18 (s.office.held.ringBase * 64 +
           s.report.fill.toNat % (16 * 2 ^ s.office.held.ringCode) * 4 + w))
         (r.word w) .report (.reportWord (w == 3)))) ∧
   (∀ (s : State) (a : Addr) (v : Word), Quiet s → Serving (wordReq a v .report (.reportWord true)) s →
     exec .reportWordCompletion s = .next (eventEnd { ended s with
       store := s.store.write a ⟨v, .both⟩
       report := { s.report with write := s.report.write + 1 } }))) ∧
  (∀ r : Record,
    (r.word 0).extractLsb' 0 5 = (match r.kind with
      | .messageRouted => 1#5 | .messageHeld => 2#5 | .messageAbandoned => 3#5 | .deliveryDone => 4#5
      | .deliveryInterrupted => 5#5 | .deliveryFailed => 6#5 | .deliveryCancelled => 7#5 | .stationUnanswered => 8#5
      | .messageReleased => 9#5 | .messageReturned => 10#5 | .postRefused => 11#5 | .cancelRefused => 12#5
      | .guardViolation => 13#5 | .commit => 14#5 | .lineFault => 15#5 | .lineRestored => 16#5
      | .holdLatched => 17#5 | .holdResumed => 18#5) ∧
    (r.word 0).extractLsb' 5 3 = BitVec.ofNat 3 r.qualifier ∧ (r.word 0).extractLsb' 8 5 = BitVec.ofNat 5 r.line ∧
    (r.word 0).extractLsb' 13 3 = 0#3 ∧ r.word 1 = r.block ∧ r.word 2 = r.detail ∧ r.word 3 = r.time.extractLsb' 0 16) ∧
  (∀ r : Record, r.owner = (match r.kind with
    | .messageRouted | .commit => .router
    | .messageAbandoned => if r.block = 65535 then .receiver r.line else .walker
    | .messageHeld | .messageReleased | .messageReturned => .walker
    | .deliveryDone | .deliveryInterrupted | .deliveryFailed | .deliveryCancelled | .stationUnanswered
    | .cancelRefused => .delivery
    | .postRefused => if r.detail = 7 ∨ r.detail = 8 then .post else .walker
    | .guardViolation => .pool
    | .lineFault | .lineRestored => .lineUnit r.line
    | .holdLatched | .holdResumed => .office)) ∧
  (∀ (s : State) (p : Offer → Bool), ∃ (order : List Nat) (m count : Nat),
    order.Perm (List.range s.report.offers.length) ∧
    takeUntil p s = ((order.take m).filterMap (fun i => s.report.offers[i]?)).foldl (fun s o => takeReport o.record s)
      { s with
        freeCount := count
        report := { s.report with offers := (order.drop m).filterMap (fun i => s.report.offers[i]?) } } ∧
    (∀ o ∈ (order.drop m).filterMap (fun i => s.report.offers[i]?), p o = false) ∧
    (∀ (i j : Nat) (x y : Offer), i < j → s.report.offers[i]? = some x → s.report.offers[j]? = some y →
      x.record.owner = y.record.owner ∨ (x.record.kind = .holdLatched ∧ y.attached = true) →
      ∃ front mid back, order = front ++ i :: (mid ++ j :: back)) ∧
    ((∀ x ∈ s.report.offers, ∀ y ∈ s.report.offers, x.record.owner = y.record.owner) →
      count = s.freeCount ∧ order = List.range s.report.offers.length) ∧
    ((∀ o ∈ s.report.offers, p o = false) → takeUntil p s = s) ∧ s.freeCount ≤ count) ∧
  (∀ (s : State) (r : WalkRequest), takeOffers s = takeUntil (fun _ => true) s ∧
    takeBefore r s = takeUntil (fun o => o.ending.isSome && o.ending == r.transit) s)

/-- R184: the report read index while RUNNING. -/
def Obligations.ReportReadIndex : Prop :=
  ∀ (s : State) (v : Word), Accessible s → running s = true →
    ((s.report.write - v).toNat + (s.report.fill - s.report.write).toNat ≤ 16 * 2 ^ s.office.held.ringCode →
      exec (.reportReadIndex v .both) s = .next (eventEnd (forward (pageWrite s 19 v .both)
        { s with report := { s.report with read := v, overflow := false, badRead := false, tally := 0 } }))) ∧
    (16 * 2 ^ s.office.held.ringCode < (s.report.write - v).toNat + (s.report.fill - s.report.write).toNat →
      exec (.reportReadIndex v .both) s = .next (eventEnd (forward (pageWrite s 19 v .both)
        { s with report := { s.report with badRead := true } })))

/-- R17, R84, R141, R186 with Tables 12-4 and 12-8: the fields of the office status word and of line status word 1, bit by
bit, and the read of the former in every office state. R6, R22, R56, R57, R100, R117 with Table 12-3: what a read of each
other live word but the claim word answers while RUNNING, the part unchanged; before RUNNING the read is forwarded. -/
def Obligations.StatusWords : Prop :=
  (∀ s : State, (officeStatus s).extractLsb' 0 2 =
      (match s.office.state with | .dormant => 0#2 | .setupRead => 1#2 | .poolBuild => 1#2 | .running => 2#2) ∧
    (officeStatus s).getLsbD 2 = s.office.setupLocked ∧ (officeStatus s).getLsbD 3 = s.office.holdLatch ∧
    (officeStatus s).getLsbD 4 = s.pins.hold ∧ (officeStatus s).getLsbD 5 = s.office.holdStill ∧
    (officeStatus s).getLsbD 6 = s.report.overflow ∧ (officeStatus s).getLsbD 7 = s.report.badRead ∧
    (officeStatus s).extractLsb' 8 8 = BitVec.ofNat 8 (if running s then s.report.tally else s.office.refusal)) ∧
  (∀ (s : State) (n : LineNo),
    (lineStatus1 s n).extractLsb' 0 2 =
      (match s.lines[n].rx.state with | .off => 0#2 | .hunting => 0#2 | .header => 1#2 | .text => 2#2 | .closing => 3#2) ∧
    (lineStatus1 s n).getLsbD 2 = s.pool.starved.contains n ∧ (lineStatus1 s n).getLsbD 3 = s.lines[n].faulted ∧
    (lineStatus1 s n).getLsbD 4 = s.lines[n].rx.noise ∧
    (lineStatus1 s n).extractLsb' 5 4 =
      (match s.lines[n].tx.state with
        | .off => 0#4 | .preamble => 1#4 | .idle => 2#4 | .guarding => 3#4 | .calling => 4#4 | .answerWait => 5#4
        | .sending => 6#4 | .breakIn => 7#4 | .held => 8#4 | .pause => 9#4) ∧
    (lineStatus1 s n).getLsbD 9 = (s.lines[n].tx.state != .off) ∧
    (lineStatus1 s n).getLsbD 10 = s.lines[n].tx.stopping ∧
    (lineStatus1 s n).getLsbD 11 = s.lines[n].settingsPending ∧
    (lineStatus1 s n).getLsbD 12 = (s.lines[n].active.type == .party) ∧
    (lineStatus1 s n).getLsbD 13 = decide (s.lines[n].active.divisor.toNat < 63) ∧
    ((lineStatus1 s n).getLsbD 14 = true ↔
      ∃ h, s.lines[n].tx.hand = some h ∧ s.du.entries[h.number].cancelPending = true) ∧
    (lineStatus1 s n).getLsbD 15 = s.lines[n].tx.breakInPending) ∧
  (∀ s : State, s.resetIn = false →
    processorRead (pageAddr s 32) s = { s with path := { s.path with pdOut := officeStatus s } }) ∧
  (∀ (s : State) (off : Nat), s.resetIn = false →
    (running s = true → ∀ w : Word,
      (off = 33 ∧ w = BitVec.ofNat 16 s.pool.free.length) ∨
        (off = 35 ∧ w = s.office.clock.extractLsb' 0 16) ∨ (off = 36 ∧ w = s.office.clock.extractLsb' 16 16) ∨
        (off = 37 ∧ w = s.report.write) ∨
        (off = 38 ∧ w = BitVec.ofNat 16
          ((List.finRange 256).filter (fun d : DeliveryNo => s.du.entries[d].state == .free)).length) ∨
        (off = 39 ∧ w = BitVec.ofNat 16
          ((List.finRange 128).filter (fun k : TransitNo => s.du.transit[k].state == .free)).length) ∨
        (∃ n : LineNo,
          (off = 64 + 2 * n.val ∧ w = lineStatus1 s n) ∨
          (off = 65 + 2 * n.val ∧ w =
            BitVec.ofNat 8 (match s.du.active[n] with | some d => d.val | none => 255) ++
              BitVec.ofNat 8 (min 255 s.du.queues[n].length)) ∨
          (off = 192 + n.val ∧ w = BitVec.ofNat 8 s.lines[n].overrun ++ BitVec.ofNat 8 s.lines[n].framing)) →
      processorRead (pageAddr s off) s = { s with path := { s.path with pdOut := w } }) ∧
    (running s = false → (33 ≤ off ∧ off ≤ 39) ∨ (64 ≤ off ∧ off ≤ 111) ∨ (192 ≤ off ∧ off ≤ 215) →
      processorRead (pageAddr s off) s = forward ⟨pageAddr s off, none⟩ s))

/-! ## The header and the gap step -/

/-- R69 to R72, R75 to R77: a take in HEADER. The character is stored, counted and, unless it is LF, parsed: the precedence
token, then pairs of tokens for the origin and up to eight destinations. LF ends the header with its checks, the 48th
character ends it with a fault, and an EOM closes the message, which is handed over with reason 1. And R64: the gap step
before a character, which clears the window and marks a message mutilated, with a LOST marker unless under truncation; where
the marker waits for the Store Port the character stays at the head of the FIFO. The class of a header that ended before a
precedence token is the model's reading (log 36). -/
def Obligations.TakeHeader : Prop :=
  (∀ (s : State) (n : LineNo) (e : FifoEntry) (rest : List FifoEntry) (win : List Code) (b : Nat) (a : Assembly)
     (r : Receiver) (byte : Req), Quiet s →
     n ∉ s.pool.starved → s.lines[n].rx.state = .header → s.lines[n].rx.asm.awaiting = [] →
     s.lines[n].rx.unplaced = none → s.lines[n].rx.fifo = e :: rest → e.gapBefore = false →
     (s.lines[n].rx.idleClose = false ∨ 0 < s.lines[n].rx.closePoint) → s.lines[n].rx.window.length ≤ 4 →
     s.lines[n].rx.asm.current = some b → chainIndex s.lines[n].rx.asm.storedLength < s.lines[n].rx.asm.blockCount →
     win = (s.lines[n].rx.window ++ [e.code]).drop ((s.lines[n].rx.window ++ [e.code]).length - 4) → Room 1 s →
     a = { s.lines[n].rx.asm with
       storedLength := s.lines[n].rx.asm.storedLength + 1, headerCount := s.lines[n].rx.asm.headerCount + 1 } →
     r = { s.lines[n].rx with
       fifo := rest, noise := e.noise, closePoint := s.lines[n].rx.closePoint - 1, window := win } →
     byte = byteReq (blockWord s b (textWord s.lines[n].rx.asm.storedLength))
       (s.lines[n].rx.asm.storedLength % 2 == 1) (e.code.setWidth 8) (.receiver n) .rxByte →
     (win ≠ s.office.held.eom → e.code = s.office.held.lf →
       ∃ t, exec (.receiverTake n) s = .next t ∧ requests t = requests s ++ [byte] ∧
         SamePart { s with lines := s.lines.set n { s.lines[n] with rx := { r with
           state := .text
           asm := { a with
             stage := .done, cls := if a.stage = .precedence then 2 else a.cls,
             headerFault := a.headerFault || decide (a.stage = .precedence ∨ a.heldToken ≠ none ∨ a.dests = []) } } } }
           t) ∧
     (∀ p, e.code ≠ s.office.held.lf → Parsed s.office.held e.code a p →
       (win ≠ s.office.held.eom → a.headerCount < 48 →
         ∃ t, exec (.receiverTake n) s = .next t ∧ requests t = requests s ++ [byte] ∧
           SamePart { s with lines := s.lines.set n { s.lines[n] with rx := { r with asm := p } } } t) ∧
       (win ≠ s.office.held.eom → 48 ≤ a.headerCount →
         ∃ t, exec (.receiverTake n) s = .next t ∧ requests t = requests s ++ [byte] ∧
           SamePart { s with lines := s.lines.set n { s.lines[n] with rx := { r with
             state := .text
             asm := { p with
               stage := .done, cls := if p.stage = .precedence then 2 else p.cls, headerFault := true } } } } t) ∧
       (∀ f, win = s.office.held.eom → a.headerCount < 48 → s.walker.walk ≠ none → a.first = some f →
         a.incomplete = false → s.lines[n].settingsPending = false → Room 17 s →
         ∃ t, exec (.receiverTake n) s = .next t ∧
           requests t = requests s ++ byte :: closeWrites s n f b { p with
             complete := true, autoRelease := true, headerFault := true, stage := .done,
             cls := if p.stage = .precedence then 2 else p.cls } ∧
           SamePart { s with
             lines := s.lines.set n { s.lines[n] with rx := { r with
               state := .hunting, window := [], idleTimer := none, idleClose := false, closeNext := 0,
               asm := Assembly.reset } }
             walker := { s.walker with
               queue := s.walker.queue ++ [⟨.handOver, f, a.blockCount, n.val, 1, none⟩] } } t))) ∧
  (∀ (s : State) (n : LineNo) (e : FifoEntry) (rest : List FifoEntry) (r : Receiver), Quiet s →
     n ∉ s.pool.starved → s.lines[n].rx.asm.awaiting = [] → s.lines[n].rx.unplaced = none →
     s.lines[n].rx.fifo = e :: rest → e.gapBefore = true → s.office.held.som.length = 4 →
     s.office.held.eom.length = 4 → (s.lines[n].rx.idleClose = false ∨ 0 < s.lines[n].rx.closePoint) →
     r = { s.lines[n].rx with
       fifo := rest, noise := e.noise, closePoint := s.lines[n].rx.closePoint - 1, window := [e.code] } →
     (s.lines[n].rx.state = .hunting → exec (.receiverTake n) s =
       .next (eventEnd { s with lines := s.lines.set n { s.lines[n] with rx := r } })) ∧
     (s.lines[n].rx.state = .text → 3934 ≤ s.lines[n].rx.asm.storedLength → exec (.receiverTake n) s =
       .next (eventEnd { s with lines := s.lines.set n { s.lines[n] with rx := { r with
         asm := { s.lines[n].rx.asm with mutilated := true, truncated := true } } } })) ∧
     (∀ b, s.lines[n].rx.state = .text → s.lines[n].rx.asm.current = some b →
       s.lines[n].rx.asm.storedLength + 1 < 3934 →
       chainIndex (s.lines[n].rx.asm.storedLength + 1) < s.lines[n].rx.asm.blockCount → Room 2 s →
       ∃ t, exec (.receiverTake n) s = .next t ∧
         SamePart { s with lines := s.lines.set n { s.lines[n] with rx := { r with
           asm := { s.lines[n].rx.asm with
             mutilated := true, storedLength := s.lines[n].rx.asm.storedLength + 2 } } } } t ∧
         requests t = requests s ++
           [byteReq (blockWord s b (textWord s.lines[n].rx.asm.storedLength))
             (s.lines[n].rx.asm.storedLength % 2 == 1) 64 (.receiver n) .rxByte,
            byteReq (blockWord s b (textWord (s.lines[n].rx.asm.storedLength + 1)))
             (s.lines[n].rx.asm.storedLength % 2 == 0) (e.code.setWidth 8) (.receiver n) .rxByte]) ∧
     (∀ b, (s.lines[n].rx.state = .header ∨
         (s.lines[n].rx.state = .text ∧ s.lines[n].rx.asm.storedLength < 3934)) →
       s.lines[n].rx.asm.current = some b →
       chainIndex s.lines[n].rx.asm.storedLength < s.lines[n].rx.asm.blockCount → s.port.waiting ≠ [] →
       Issuer.receiver n ∉ s.port.waiting →
       ∃ t, exec (.receiverTake n) s = .next t ∧ t.port.waiting = s.port.waiting ++ [.receiver n] ∧
         requests t = requests s ∧
         SamePart { s with lines := s.lines.set n { s.lines[n] with rx := { s.lines[n].rx with
           fifo := { e with gapBefore := false } :: rest, window := [],
           asm := { s.lines[n].rx.asm with
             mutilated := true, storedLength := s.lines[n].rx.asm.storedLength + 1 },
           unplaced := some (byteReq (blockWord s b (textWord s.lines[n].rx.asm.storedLength))
             (s.lines[n].rx.asm.storedLength % 2 == 1) 64 (.receiver n) .rxByte) } } } t))
end

