-- ==== Sys2Proof/Laws/State.lean ====
section
/-! SUPPORT. The small lemmas of the state's updates: what each update leaves unchanged, field by field, and what a read
of the updated part gives. -/

namespace Sys2Proof.Machine

variable (s : State)

/-! ### updLine -/

@[simp] theorem updLine_pending (n : LineNo) (f : LineUnit → LineUnit) : (updLine n f s).pending = s.pending := rfl
@[simp] theorem updLine_inputs (n : LineNo) (f : LineUnit → LineUnit) : (updLine n f s).inputs = s.inputs := rfl
@[simp] theorem updLine_pins (n : LineNo) (f : LineUnit → LineUnit) : (updLine n f s).pins = s.pins := rfl
@[simp] theorem updLine_resetIn (n : LineNo) (f : LineUnit → LineUnit) : (updLine n f s).resetIn = s.resetIn := rfl
@[simp] theorem updLine_freeCount (n : LineNo) (f : LineUnit → LineUnit) : (updLine n f s).freeCount = s.freeCount := rfl
@[simp] theorem updLine_path (n : LineNo) (f : LineUnit → LineUnit) : (updLine n f s).path = s.path := rfl
@[simp] theorem updLine_port (n : LineNo) (f : LineUnit → LineUnit) : (updLine n f s).port = s.port := rfl
@[simp] theorem updLine_store (n : LineNo) (f : LineUnit → LineUnit) : (updLine n f s).store = s.store := rfl
@[simp] theorem updLine_office (n : LineNo) (f : LineUnit → LineUnit) : (updLine n f s).office = s.office := rfl
@[simp] theorem updLine_pool (n : LineNo) (f : LineUnit → LineUnit) : (updLine n f s).pool = s.pool := rfl
@[simp] theorem updLine_walker (n : LineNo) (f : LineUnit → LineUnit) : (updLine n f s).walker = s.walker := rfl
@[simp] theorem updLine_router (n : LineNo) (f : LineUnit → LineUnit) : (updLine n f s).router = s.router := rfl
@[simp] theorem updLine_du (n : LineNo) (f : LineUnit → LineUnit) : (updLine n f s).du = s.du := rfl
@[simp] theorem updLine_post (n : LineNo) (f : LineUnit → LineUnit) : (updLine n f s).post = s.post := rfl
@[simp] theorem updLine_report (n : LineNo) (f : LineUnit → LineUnit) : (updLine n f s).report = s.report := rfl

/-! ### updRx -/

@[simp] theorem updRx_pending (n : LineNo) (f : Receiver → Receiver) : (updRx n f s).pending = s.pending := rfl
@[simp] theorem updRx_inputs (n : LineNo) (f : Receiver → Receiver) : (updRx n f s).inputs = s.inputs := rfl
@[simp] theorem updRx_pins (n : LineNo) (f : Receiver → Receiver) : (updRx n f s).pins = s.pins := rfl
@[simp] theorem updRx_resetIn (n : LineNo) (f : Receiver → Receiver) : (updRx n f s).resetIn = s.resetIn := rfl
@[simp] theorem updRx_freeCount (n : LineNo) (f : Receiver → Receiver) : (updRx n f s).freeCount = s.freeCount := rfl
@[simp] theorem updRx_path (n : LineNo) (f : Receiver → Receiver) : (updRx n f s).path = s.path := rfl
@[simp] theorem updRx_port (n : LineNo) (f : Receiver → Receiver) : (updRx n f s).port = s.port := rfl
@[simp] theorem updRx_store (n : LineNo) (f : Receiver → Receiver) : (updRx n f s).store = s.store := rfl
@[simp] theorem updRx_office (n : LineNo) (f : Receiver → Receiver) : (updRx n f s).office = s.office := rfl
@[simp] theorem updRx_pool (n : LineNo) (f : Receiver → Receiver) : (updRx n f s).pool = s.pool := rfl
@[simp] theorem updRx_walker (n : LineNo) (f : Receiver → Receiver) : (updRx n f s).walker = s.walker := rfl
@[simp] theorem updRx_router (n : LineNo) (f : Receiver → Receiver) : (updRx n f s).router = s.router := rfl
@[simp] theorem updRx_du (n : LineNo) (f : Receiver → Receiver) : (updRx n f s).du = s.du := rfl
@[simp] theorem updRx_post (n : LineNo) (f : Receiver → Receiver) : (updRx n f s).post = s.post := rfl
@[simp] theorem updRx_report (n : LineNo) (f : Receiver → Receiver) : (updRx n f s).report = s.report := rfl

/-! ### updAsm -/

@[simp] theorem updAsm_pending (n : LineNo) (f : Assembly → Assembly) : (updAsm n f s).pending = s.pending := rfl
@[simp] theorem updAsm_inputs (n : LineNo) (f : Assembly → Assembly) : (updAsm n f s).inputs = s.inputs := rfl
@[simp] theorem updAsm_pins (n : LineNo) (f : Assembly → Assembly) : (updAsm n f s).pins = s.pins := rfl
@[simp] theorem updAsm_resetIn (n : LineNo) (f : Assembly → Assembly) : (updAsm n f s).resetIn = s.resetIn := rfl
@[simp] theorem updAsm_freeCount (n : LineNo) (f : Assembly → Assembly) : (updAsm n f s).freeCount = s.freeCount := rfl
@[simp] theorem updAsm_path (n : LineNo) (f : Assembly → Assembly) : (updAsm n f s).path = s.path := rfl
@[simp] theorem updAsm_port (n : LineNo) (f : Assembly → Assembly) : (updAsm n f s).port = s.port := rfl
@[simp] theorem updAsm_store (n : LineNo) (f : Assembly → Assembly) : (updAsm n f s).store = s.store := rfl
@[simp] theorem updAsm_office (n : LineNo) (f : Assembly → Assembly) : (updAsm n f s).office = s.office := rfl
@[simp] theorem updAsm_pool (n : LineNo) (f : Assembly → Assembly) : (updAsm n f s).pool = s.pool := rfl
@[simp] theorem updAsm_walker (n : LineNo) (f : Assembly → Assembly) : (updAsm n f s).walker = s.walker := rfl
@[simp] theorem updAsm_router (n : LineNo) (f : Assembly → Assembly) : (updAsm n f s).router = s.router := rfl
@[simp] theorem updAsm_du (n : LineNo) (f : Assembly → Assembly) : (updAsm n f s).du = s.du := rfl
@[simp] theorem updAsm_post (n : LineNo) (f : Assembly → Assembly) : (updAsm n f s).post = s.post := rfl
@[simp] theorem updAsm_report (n : LineNo) (f : Assembly → Assembly) : (updAsm n f s).report = s.report := rfl

/-! ### updTx -/

@[simp] theorem updTx_pending (n : LineNo) (f : Transmitter → Transmitter) : (updTx n f s).pending = s.pending := rfl
@[simp] theorem updTx_inputs (n : LineNo) (f : Transmitter → Transmitter) : (updTx n f s).inputs = s.inputs := rfl
@[simp] theorem updTx_pins (n : LineNo) (f : Transmitter → Transmitter) : (updTx n f s).pins = s.pins := rfl
@[simp] theorem updTx_resetIn (n : LineNo) (f : Transmitter → Transmitter) : (updTx n f s).resetIn = s.resetIn := rfl
@[simp] theorem updTx_freeCount (n : LineNo) (f : Transmitter → Transmitter) : (updTx n f s).freeCount = s.freeCount := rfl
@[simp] theorem updTx_path (n : LineNo) (f : Transmitter → Transmitter) : (updTx n f s).path = s.path := rfl
@[simp] theorem updTx_port (n : LineNo) (f : Transmitter → Transmitter) : (updTx n f s).port = s.port := rfl
@[simp] theorem updTx_store (n : LineNo) (f : Transmitter → Transmitter) : (updTx n f s).store = s.store := rfl
@[simp] theorem updTx_office (n : LineNo) (f : Transmitter → Transmitter) : (updTx n f s).office = s.office := rfl
@[simp] theorem updTx_pool (n : LineNo) (f : Transmitter → Transmitter) : (updTx n f s).pool = s.pool := rfl
@[simp] theorem updTx_walker (n : LineNo) (f : Transmitter → Transmitter) : (updTx n f s).walker = s.walker := rfl
@[simp] theorem updTx_router (n : LineNo) (f : Transmitter → Transmitter) : (updTx n f s).router = s.router := rfl
@[simp] theorem updTx_du (n : LineNo) (f : Transmitter → Transmitter) : (updTx n f s).du = s.du := rfl
@[simp] theorem updTx_post (n : LineNo) (f : Transmitter → Transmitter) : (updTx n f s).post = s.post := rfl
@[simp] theorem updTx_report (n : LineNo) (f : Transmitter → Transmitter) : (updTx n f s).report = s.report := rfl

/-! ### updEntry -/

@[simp] theorem updEntry_pending (d : DeliveryNo) (f : Delivery → Delivery) : (updEntry d f s).pending = s.pending := rfl
@[simp] theorem updEntry_inputs (d : DeliveryNo) (f : Delivery → Delivery) : (updEntry d f s).inputs = s.inputs := rfl
@[simp] theorem updEntry_pins (d : DeliveryNo) (f : Delivery → Delivery) : (updEntry d f s).pins = s.pins := rfl
@[simp] theorem updEntry_resetIn (d : DeliveryNo) (f : Delivery → Delivery) : (updEntry d f s).resetIn = s.resetIn := rfl
@[simp] theorem updEntry_freeCount (d : DeliveryNo) (f : Delivery → Delivery) : (updEntry d f s).freeCount = s.freeCount := rfl
@[simp] theorem updEntry_path (d : DeliveryNo) (f : Delivery → Delivery) : (updEntry d f s).path = s.path := rfl
@[simp] theorem updEntry_port (d : DeliveryNo) (f : Delivery → Delivery) : (updEntry d f s).port = s.port := rfl
@[simp] theorem updEntry_store (d : DeliveryNo) (f : Delivery → Delivery) : (updEntry d f s).store = s.store := rfl
@[simp] theorem updEntry_office (d : DeliveryNo) (f : Delivery → Delivery) : (updEntry d f s).office = s.office := rfl
@[simp] theorem updEntry_pool (d : DeliveryNo) (f : Delivery → Delivery) : (updEntry d f s).pool = s.pool := rfl
@[simp] theorem updEntry_walker (d : DeliveryNo) (f : Delivery → Delivery) : (updEntry d f s).walker = s.walker := rfl
@[simp] theorem updEntry_lines (d : DeliveryNo) (f : Delivery → Delivery) : (updEntry d f s).lines = s.lines := rfl
@[simp] theorem updEntry_router (d : DeliveryNo) (f : Delivery → Delivery) : (updEntry d f s).router = s.router := rfl
@[simp] theorem updEntry_post (d : DeliveryNo) (f : Delivery → Delivery) : (updEntry d f s).post = s.post := rfl
@[simp] theorem updEntry_report (d : DeliveryNo) (f : Delivery → Delivery) : (updEntry d f s).report = s.report := rfl
@[simp] theorem updEntry_transit (d : DeliveryNo) (f : Delivery → Delivery) : (updEntry d f s).du.transit = s.du.transit := rfl
@[simp] theorem updEntry_queues (d : DeliveryNo) (f : Delivery → Delivery) : (updEntry d f s).du.queues = s.du.queues := rfl
@[simp] theorem updEntry_active (d : DeliveryNo) (f : Delivery → Delivery) : (updEntry d f s).du.active = s.du.active := rfl
@[simp] theorem updEntry_rewrites (d : DeliveryNo) (f : Delivery → Delivery) : (updEntry d f s).du.rewrites = s.du.rewrites := rfl

/-! ### updTransit -/

@[simp] theorem updTransit_pending (t : TransitNo) (f : Transit → Transit) : (updTransit t f s).pending = s.pending := rfl
@[simp] theorem updTransit_inputs (t : TransitNo) (f : Transit → Transit) : (updTransit t f s).inputs = s.inputs := rfl
@[simp] theorem updTransit_pins (t : TransitNo) (f : Transit → Transit) : (updTransit t f s).pins = s.pins := rfl
@[simp] theorem updTransit_resetIn (t : TransitNo) (f : Transit → Transit) : (updTransit t f s).resetIn = s.resetIn := rfl
@[simp] theorem updTransit_freeCount (t : TransitNo) (f : Transit → Transit) : (updTransit t f s).freeCount = s.freeCount := rfl
@[simp] theorem updTransit_path (t : TransitNo) (f : Transit → Transit) : (updTransit t f s).path = s.path := rfl
@[simp] theorem updTransit_port (t : TransitNo) (f : Transit → Transit) : (updTransit t f s).port = s.port := rfl
@[simp] theorem updTransit_store (t : TransitNo) (f : Transit → Transit) : (updTransit t f s).store = s.store := rfl
@[simp] theorem updTransit_office (t : TransitNo) (f : Transit → Transit) : (updTransit t f s).office = s.office := rfl
@[simp] theorem updTransit_pool (t : TransitNo) (f : Transit → Transit) : (updTransit t f s).pool = s.pool := rfl
@[simp] theorem updTransit_walker (t : TransitNo) (f : Transit → Transit) : (updTransit t f s).walker = s.walker := rfl
@[simp] theorem updTransit_lines (t : TransitNo) (f : Transit → Transit) : (updTransit t f s).lines = s.lines := rfl
@[simp] theorem updTransit_router (t : TransitNo) (f : Transit → Transit) : (updTransit t f s).router = s.router := rfl
@[simp] theorem updTransit_post (t : TransitNo) (f : Transit → Transit) : (updTransit t f s).post = s.post := rfl
@[simp] theorem updTransit_report (t : TransitNo) (f : Transit → Transit) : (updTransit t f s).report = s.report := rfl
@[simp] theorem updTransit_entries (t : TransitNo) (f : Transit → Transit) : (updTransit t f s).du.entries = s.du.entries := rfl
@[simp] theorem updTransit_queues (t : TransitNo) (f : Transit → Transit) : (updTransit t f s).du.queues = s.du.queues := rfl
@[simp] theorem updTransit_active (t : TransitNo) (f : Transit → Transit) : (updTransit t f s).du.active = s.du.active := rfl
@[simp] theorem updTransit_rewrites (t : TransitNo) (f : Transit → Transit) : (updTransit t f s).du.rewrites = s.du.rewrites := rfl

/-! ### updQueue -/

@[simp] theorem updQueue_pending (n : LineNo) (f : List DeliveryNo → List DeliveryNo) : (updQueue n f s).pending = s.pending := rfl
@[simp] theorem updQueue_inputs (n : LineNo) (f : List DeliveryNo → List DeliveryNo) : (updQueue n f s).inputs = s.inputs := rfl
@[simp] theorem updQueue_pins (n : LineNo) (f : List DeliveryNo → List DeliveryNo) : (updQueue n f s).pins = s.pins := rfl
@[simp] theorem updQueue_resetIn (n : LineNo) (f : List DeliveryNo → List DeliveryNo) : (updQueue n f s).resetIn = s.resetIn := rfl
@[simp] theorem updQueue_freeCount (n : LineNo) (f : List DeliveryNo → List DeliveryNo) : (updQueue n f s).freeCount = s.freeCount := rfl
@[simp] theorem updQueue_path (n : LineNo) (f : List DeliveryNo → List DeliveryNo) : (updQueue n f s).path = s.path := rfl
@[simp] theorem updQueue_port (n : LineNo) (f : List DeliveryNo → List DeliveryNo) : (updQueue n f s).port = s.port := rfl
@[simp] theorem updQueue_store (n : LineNo) (f : List DeliveryNo → List DeliveryNo) : (updQueue n f s).store = s.store := rfl
@[simp] theorem updQueue_office (n : LineNo) (f : List DeliveryNo → List DeliveryNo) : (updQueue n f s).office = s.office := rfl
@[simp] theorem updQueue_pool (n : LineNo) (f : List DeliveryNo → List DeliveryNo) : (updQueue n f s).pool = s.pool := rfl
@[simp] theorem updQueue_walker (n : LineNo) (f : List DeliveryNo → List DeliveryNo) : (updQueue n f s).walker = s.walker := rfl
@[simp] theorem updQueue_lines (n : LineNo) (f : List DeliveryNo → List DeliveryNo) : (updQueue n f s).lines = s.lines := rfl
@[simp] theorem updQueue_router (n : LineNo) (f : List DeliveryNo → List DeliveryNo) : (updQueue n f s).router = s.router := rfl
@[simp] theorem updQueue_post (n : LineNo) (f : List DeliveryNo → List DeliveryNo) : (updQueue n f s).post = s.post := rfl
@[simp] theorem updQueue_report (n : LineNo) (f : List DeliveryNo → List DeliveryNo) : (updQueue n f s).report = s.report := rfl
@[simp] theorem updQueue_entries (n : LineNo) (f : List DeliveryNo → List DeliveryNo) : (updQueue n f s).du.entries = s.du.entries := rfl
@[simp] theorem updQueue_transit (n : LineNo) (f : List DeliveryNo → List DeliveryNo) : (updQueue n f s).du.transit = s.du.transit := rfl
@[simp] theorem updQueue_active (n : LineNo) (f : List DeliveryNo → List DeliveryNo) : (updQueue n f s).du.active = s.du.active := rfl
@[simp] theorem updQueue_rewrites (n : LineNo) (f : List DeliveryNo → List DeliveryNo) : (updQueue n f s).du.rewrites = s.du.rewrites := rfl

/-! ### setActive -/

@[simp] theorem setActive_pending (n : LineNo) (a : Option DeliveryNo) : (setActive n a s).pending = s.pending := rfl
@[simp] theorem setActive_inputs (n : LineNo) (a : Option DeliveryNo) : (setActive n a s).inputs = s.inputs := rfl
@[simp] theorem setActive_pins (n : LineNo) (a : Option DeliveryNo) : (setActive n a s).pins = s.pins := rfl
@[simp] theorem setActive_resetIn (n : LineNo) (a : Option DeliveryNo) : (setActive n a s).resetIn = s.resetIn := rfl
@[simp] theorem setActive_freeCount (n : LineNo) (a : Option DeliveryNo) : (setActive n a s).freeCount = s.freeCount := rfl
@[simp] theorem setActive_path (n : LineNo) (a : Option DeliveryNo) : (setActive n a s).path = s.path := rfl
@[simp] theorem setActive_port (n : LineNo) (a : Option DeliveryNo) : (setActive n a s).port = s.port := rfl
@[simp] theorem setActive_store (n : LineNo) (a : Option DeliveryNo) : (setActive n a s).store = s.store := rfl
@[simp] theorem setActive_office (n : LineNo) (a : Option DeliveryNo) : (setActive n a s).office = s.office := rfl
@[simp] theorem setActive_pool (n : LineNo) (a : Option DeliveryNo) : (setActive n a s).pool = s.pool := rfl
@[simp] theorem setActive_walker (n : LineNo) (a : Option DeliveryNo) : (setActive n a s).walker = s.walker := rfl
@[simp] theorem setActive_lines (n : LineNo) (a : Option DeliveryNo) : (setActive n a s).lines = s.lines := rfl
@[simp] theorem setActive_router (n : LineNo) (a : Option DeliveryNo) : (setActive n a s).router = s.router := rfl
@[simp] theorem setActive_post (n : LineNo) (a : Option DeliveryNo) : (setActive n a s).post = s.post := rfl
@[simp] theorem setActive_report (n : LineNo) (a : Option DeliveryNo) : (setActive n a s).report = s.report := rfl
@[simp] theorem setActive_entries (n : LineNo) (a : Option DeliveryNo) : (setActive n a s).du.entries = s.du.entries := rfl
@[simp] theorem setActive_transit (n : LineNo) (a : Option DeliveryNo) : (setActive n a s).du.transit = s.du.transit := rfl
@[simp] theorem setActive_queues (n : LineNo) (a : Option DeliveryNo) : (setActive n a s).du.queues = s.du.queues := rfl
@[simp] theorem setActive_rewrites (n : LineNo) (a : Option DeliveryNo) : (setActive n a s).du.rewrites = s.du.rewrites := rfl

/-! ### updRewrites -/

@[simp] theorem updRewrites_pending (f : List Rewrite → List Rewrite) : (updRewrites f s).pending = s.pending := rfl
@[simp] theorem updRewrites_inputs (f : List Rewrite → List Rewrite) : (updRewrites f s).inputs = s.inputs := rfl
@[simp] theorem updRewrites_pins (f : List Rewrite → List Rewrite) : (updRewrites f s).pins = s.pins := rfl
@[simp] theorem updRewrites_resetIn (f : List Rewrite → List Rewrite) : (updRewrites f s).resetIn = s.resetIn := rfl
@[simp] theorem updRewrites_freeCount (f : List Rewrite → List Rewrite) : (updRewrites f s).freeCount = s.freeCount := rfl
@[simp] theorem updRewrites_path (f : List Rewrite → List Rewrite) : (updRewrites f s).path = s.path := rfl
@[simp] theorem updRewrites_port (f : List Rewrite → List Rewrite) : (updRewrites f s).port = s.port := rfl
@[simp] theorem updRewrites_store (f : List Rewrite → List Rewrite) : (updRewrites f s).store = s.store := rfl
@[simp] theorem updRewrites_office (f : List Rewrite → List Rewrite) : (updRewrites f s).office = s.office := rfl
@[simp] theorem updRewrites_pool (f : List Rewrite → List Rewrite) : (updRewrites f s).pool = s.pool := rfl
@[simp] theorem updRewrites_walker (f : List Rewrite → List Rewrite) : (updRewrites f s).walker = s.walker := rfl
@[simp] theorem updRewrites_lines (f : List Rewrite → List Rewrite) : (updRewrites f s).lines = s.lines := rfl
@[simp] theorem updRewrites_router (f : List Rewrite → List Rewrite) : (updRewrites f s).router = s.router := rfl
@[simp] theorem updRewrites_post (f : List Rewrite → List Rewrite) : (updRewrites f s).post = s.post := rfl
@[simp] theorem updRewrites_report (f : List Rewrite → List Rewrite) : (updRewrites f s).report = s.report := rfl
@[simp] theorem updRewrites_entries (f : List Rewrite → List Rewrite) : (updRewrites f s).du.entries = s.du.entries := rfl
@[simp] theorem updRewrites_transit (f : List Rewrite → List Rewrite) : (updRewrites f s).du.transit = s.du.transit := rfl
@[simp] theorem updRewrites_queues (f : List Rewrite → List Rewrite) : (updRewrites f s).du.queues = s.du.queues := rfl
@[simp] theorem updRewrites_active (f : List Rewrite → List Rewrite) : (updRewrites f s).du.active = s.du.active := rfl
@[simp] theorem updRewrites_rewrites (f : List Rewrite → List Rewrite) : (updRewrites f s).du.rewrites = f s.du.rewrites := rfl

/-! ### setBlock -/

@[simp] theorem setBlock_pending (b : Nat) (v : BlockState) : (setBlock b v s).pending = s.pending := rfl
@[simp] theorem setBlock_inputs (b : Nat) (v : BlockState) : (setBlock b v s).inputs = s.inputs := rfl
@[simp] theorem setBlock_pins (b : Nat) (v : BlockState) : (setBlock b v s).pins = s.pins := rfl
@[simp] theorem setBlock_resetIn (b : Nat) (v : BlockState) : (setBlock b v s).resetIn = s.resetIn := rfl
@[simp] theorem setBlock_freeCount (b : Nat) (v : BlockState) : (setBlock b v s).freeCount = s.freeCount := rfl
@[simp] theorem setBlock_path (b : Nat) (v : BlockState) : (setBlock b v s).path = s.path := rfl
@[simp] theorem setBlock_port (b : Nat) (v : BlockState) : (setBlock b v s).port = s.port := rfl
@[simp] theorem setBlock_store (b : Nat) (v : BlockState) : (setBlock b v s).store = s.store := rfl
@[simp] theorem setBlock_office (b : Nat) (v : BlockState) : (setBlock b v s).office = s.office := rfl
@[simp] theorem setBlock_walker (b : Nat) (v : BlockState) : (setBlock b v s).walker = s.walker := rfl
@[simp] theorem setBlock_lines (b : Nat) (v : BlockState) : (setBlock b v s).lines = s.lines := rfl
@[simp] theorem setBlock_router (b : Nat) (v : BlockState) : (setBlock b v s).router = s.router := rfl
@[simp] theorem setBlock_du (b : Nat) (v : BlockState) : (setBlock b v s).du = s.du := rfl
@[simp] theorem setBlock_post (b : Nat) (v : BlockState) : (setBlock b v s).post = s.post := rfl
@[simp] theorem setBlock_report (b : Nat) (v : BlockState) : (setBlock b v s).report = s.report := rfl
@[simp] theorem setBlock_free (b : Nat) (v : BlockState) : (setBlock b v s).pool.free = s.pool.free := rfl
@[simp] theorem setBlock_starved (b : Nat) (v : BlockState) : (setBlock b v s).pool.starved = s.pool.starved := rfl
@[simp] theorem setBlock_map (b : Nat) (v : BlockState) : (setBlock b v s).pool.map = s.pool.map.set b v := rfl

/-! ### updPool -/

@[simp] theorem updPool_pending (f : PoolUnit → PoolUnit) : (updPool f s).pending = s.pending := rfl
@[simp] theorem updPool_inputs (f : PoolUnit → PoolUnit) : (updPool f s).inputs = s.inputs := rfl
@[simp] theorem updPool_pins (f : PoolUnit → PoolUnit) : (updPool f s).pins = s.pins := rfl
@[simp] theorem updPool_resetIn (f : PoolUnit → PoolUnit) : (updPool f s).resetIn = s.resetIn := rfl
@[simp] theorem updPool_freeCount (f : PoolUnit → PoolUnit) : (updPool f s).freeCount = s.freeCount := rfl
@[simp] theorem updPool_path (f : PoolUnit → PoolUnit) : (updPool f s).path = s.path := rfl
@[simp] theorem updPool_port (f : PoolUnit → PoolUnit) : (updPool f s).port = s.port := rfl
@[simp] theorem updPool_store (f : PoolUnit → PoolUnit) : (updPool f s).store = s.store := rfl
@[simp] theorem updPool_office (f : PoolUnit → PoolUnit) : (updPool f s).office = s.office := rfl
@[simp] theorem updPool_walker (f : PoolUnit → PoolUnit) : (updPool f s).walker = s.walker := rfl
@[simp] theorem updPool_lines (f : PoolUnit → PoolUnit) : (updPool f s).lines = s.lines := rfl
@[simp] theorem updPool_router (f : PoolUnit → PoolUnit) : (updPool f s).router = s.router := rfl
@[simp] theorem updPool_du (f : PoolUnit → PoolUnit) : (updPool f s).du = s.du := rfl
@[simp] theorem updPool_post (f : PoolUnit → PoolUnit) : (updPool f s).post = s.post := rfl
@[simp] theorem updPool_report (f : PoolUnit → PoolUnit) : (updPool f s).report = s.report := rfl
@[simp] theorem updPool_pool (f : PoolUnit → PoolUnit) : (updPool f s).pool = f s.pool := rfl

/-! ### updPort -/

@[simp] theorem updPort_pending (f : StorePort → StorePort) : (updPort f s).pending = s.pending := rfl
@[simp] theorem updPort_inputs (f : StorePort → StorePort) : (updPort f s).inputs = s.inputs := rfl
@[simp] theorem updPort_pins (f : StorePort → StorePort) : (updPort f s).pins = s.pins := rfl
@[simp] theorem updPort_resetIn (f : StorePort → StorePort) : (updPort f s).resetIn = s.resetIn := rfl
@[simp] theorem updPort_freeCount (f : StorePort → StorePort) : (updPort f s).freeCount = s.freeCount := rfl
@[simp] theorem updPort_path (f : StorePort → StorePort) : (updPort f s).path = s.path := rfl
@[simp] theorem updPort_store (f : StorePort → StorePort) : (updPort f s).store = s.store := rfl
@[simp] theorem updPort_office (f : StorePort → StorePort) : (updPort f s).office = s.office := rfl
@[simp] theorem updPort_pool (f : StorePort → StorePort) : (updPort f s).pool = s.pool := rfl
@[simp] theorem updPort_walker (f : StorePort → StorePort) : (updPort f s).walker = s.walker := rfl
@[simp] theorem updPort_lines (f : StorePort → StorePort) : (updPort f s).lines = s.lines := rfl
@[simp] theorem updPort_router (f : StorePort → StorePort) : (updPort f s).router = s.router := rfl
@[simp] theorem updPort_du (f : StorePort → StorePort) : (updPort f s).du = s.du := rfl
@[simp] theorem updPort_post (f : StorePort → StorePort) : (updPort f s).post = s.post := rfl
@[simp] theorem updPort_report (f : StorePort → StorePort) : (updPort f s).report = s.report := rfl
@[simp] theorem updPort_port (f : StorePort → StorePort) : (updPort f s).port = f s.port := rfl

/-! ### updOffice -/

@[simp] theorem updOffice_pending (f : OfficeControl → OfficeControl) : (updOffice f s).pending = s.pending := rfl
@[simp] theorem updOffice_inputs (f : OfficeControl → OfficeControl) : (updOffice f s).inputs = s.inputs := rfl
@[simp] theorem updOffice_pins (f : OfficeControl → OfficeControl) : (updOffice f s).pins = s.pins := rfl
@[simp] theorem updOffice_resetIn (f : OfficeControl → OfficeControl) : (updOffice f s).resetIn = s.resetIn := rfl
@[simp] theorem updOffice_freeCount (f : OfficeControl → OfficeControl) : (updOffice f s).freeCount = s.freeCount := rfl
@[simp] theorem updOffice_path (f : OfficeControl → OfficeControl) : (updOffice f s).path = s.path := rfl
@[simp] theorem updOffice_port (f : OfficeControl → OfficeControl) : (updOffice f s).port = s.port := rfl
@[simp] theorem updOffice_store (f : OfficeControl → OfficeControl) : (updOffice f s).store = s.store := rfl
@[simp] theorem updOffice_pool (f : OfficeControl → OfficeControl) : (updOffice f s).pool = s.pool := rfl
@[simp] theorem updOffice_walker (f : OfficeControl → OfficeControl) : (updOffice f s).walker = s.walker := rfl
@[simp] theorem updOffice_lines (f : OfficeControl → OfficeControl) : (updOffice f s).lines = s.lines := rfl
@[simp] theorem updOffice_router (f : OfficeControl → OfficeControl) : (updOffice f s).router = s.router := rfl
@[simp] theorem updOffice_du (f : OfficeControl → OfficeControl) : (updOffice f s).du = s.du := rfl
@[simp] theorem updOffice_post (f : OfficeControl → OfficeControl) : (updOffice f s).post = s.post := rfl
@[simp] theorem updOffice_report (f : OfficeControl → OfficeControl) : (updOffice f s).report = s.report := rfl
@[simp] theorem updOffice_office (f : OfficeControl → OfficeControl) : (updOffice f s).office = f s.office := rfl

/-! ### updReport -/

@[simp] theorem updReport_pending (f : ReportUnit → ReportUnit) : (updReport f s).pending = s.pending := rfl
@[simp] theorem updReport_inputs (f : ReportUnit → ReportUnit) : (updReport f s).inputs = s.inputs := rfl
@[simp] theorem updReport_pins (f : ReportUnit → ReportUnit) : (updReport f s).pins = s.pins := rfl
@[simp] theorem updReport_resetIn (f : ReportUnit → ReportUnit) : (updReport f s).resetIn = s.resetIn := rfl
@[simp] theorem updReport_freeCount (f : ReportUnit → ReportUnit) : (updReport f s).freeCount = s.freeCount := rfl
@[simp] theorem updReport_path (f : ReportUnit → ReportUnit) : (updReport f s).path = s.path := rfl
@[simp] theorem updReport_port (f : ReportUnit → ReportUnit) : (updReport f s).port = s.port := rfl
@[simp] theorem updReport_store (f : ReportUnit → ReportUnit) : (updReport f s).store = s.store := rfl
@[simp] theorem updReport_office (f : ReportUnit → ReportUnit) : (updReport f s).office = s.office := rfl
@[simp] theorem updReport_pool (f : ReportUnit → ReportUnit) : (updReport f s).pool = s.pool := rfl
@[simp] theorem updReport_walker (f : ReportUnit → ReportUnit) : (updReport f s).walker = s.walker := rfl
@[simp] theorem updReport_lines (f : ReportUnit → ReportUnit) : (updReport f s).lines = s.lines := rfl
@[simp] theorem updReport_router (f : ReportUnit → ReportUnit) : (updReport f s).router = s.router := rfl
@[simp] theorem updReport_du (f : ReportUnit → ReportUnit) : (updReport f s).du = s.du := rfl
@[simp] theorem updReport_post (f : ReportUnit → ReportUnit) : (updReport f s).post = s.post := rfl
@[simp] theorem updReport_report (f : ReportUnit → ReportUnit) : (updReport f s).report = f s.report := rfl

/-! ### updWalker -/

@[simp] theorem updWalker_pending (f : ChainWalker → ChainWalker) : (updWalker f s).pending = s.pending := rfl
@[simp] theorem updWalker_inputs (f : ChainWalker → ChainWalker) : (updWalker f s).inputs = s.inputs := rfl
@[simp] theorem updWalker_pins (f : ChainWalker → ChainWalker) : (updWalker f s).pins = s.pins := rfl
@[simp] theorem updWalker_resetIn (f : ChainWalker → ChainWalker) : (updWalker f s).resetIn = s.resetIn := rfl
@[simp] theorem updWalker_freeCount (f : ChainWalker → ChainWalker) : (updWalker f s).freeCount = s.freeCount := rfl
@[simp] theorem updWalker_path (f : ChainWalker → ChainWalker) : (updWalker f s).path = s.path := rfl
@[simp] theorem updWalker_port (f : ChainWalker → ChainWalker) : (updWalker f s).port = s.port := rfl
@[simp] theorem updWalker_store (f : ChainWalker → ChainWalker) : (updWalker f s).store = s.store := rfl
@[simp] theorem updWalker_office (f : ChainWalker → ChainWalker) : (updWalker f s).office = s.office := rfl
@[simp] theorem updWalker_pool (f : ChainWalker → ChainWalker) : (updWalker f s).pool = s.pool := rfl
@[simp] theorem updWalker_lines (f : ChainWalker → ChainWalker) : (updWalker f s).lines = s.lines := rfl
@[simp] theorem updWalker_router (f : ChainWalker → ChainWalker) : (updWalker f s).router = s.router := rfl
@[simp] theorem updWalker_du (f : ChainWalker → ChainWalker) : (updWalker f s).du = s.du := rfl
@[simp] theorem updWalker_post (f : ChainWalker → ChainWalker) : (updWalker f s).post = s.post := rfl
@[simp] theorem updWalker_report (f : ChainWalker → ChainWalker) : (updWalker f s).report = s.report := rfl
@[simp] theorem updWalker_walker (f : ChainWalker → ChainWalker) : (updWalker f s).walker = f s.walker := rfl

/-! ### Reads of an updated line, entry, queue or place -/

@[simp] theorem updLine_lines_self (n : LineNo) (f : LineUnit → LineUnit) : (updLine n f s).lines[n.val] = f s.lines[n.val] := by
  simp [updLine]

theorem updLine_lines_ne {n m : LineNo} (f : LineUnit → LineUnit) (h : m ≠ n) : (updLine n f s).lines[m.val] = s.lines[m.val] := by
  have : n.val ≠ m.val := fun e => h (Fin.ext e.symm)
  simp [updLine, this]

theorem updLine_lines_get (n m : LineNo) (f : LineUnit → LineUnit) :
    (updLine n f s).lines[m.val] = if m = n then f s.lines[n.val] else s.lines[m.val] := by
  by_cases h : m = n
  · subst h; simp
  · simp [h, updLine_lines_ne s f h]

@[simp] theorem updRx_lines_self (n : LineNo) (f : Receiver → Receiver) :
    (updRx n f s).lines[n.val] = { s.lines[n.val] with rx := f s.lines[n.val].rx } := updLine_lines_self s n _

theorem updRx_lines_ne {n m : LineNo} (f : Receiver → Receiver) (h : m ≠ n) : (updRx n f s).lines[m.val] = s.lines[m.val] :=
  updLine_lines_ne s _ h

@[simp] theorem updTx_lines_self (n : LineNo) (f : Transmitter → Transmitter) :
    (updTx n f s).lines[n.val] = { s.lines[n.val] with tx := f s.lines[n.val].tx } := updLine_lines_self s n _

theorem updTx_lines_ne {n m : LineNo} (f : Transmitter → Transmitter) (h : m ≠ n) :
    (updTx n f s).lines[m.val] = s.lines[m.val] := updLine_lines_ne s _ h

@[simp] theorem updAsm_lines_self (n : LineNo) (f : Assembly → Assembly) :
    (updAsm n f s).lines[n.val] = { s.lines[n.val] with rx := { s.lines[n.val].rx with asm := f s.lines[n.val].rx.asm } } :=
  updLine_lines_self s n _

@[simp] theorem updEntry_entries_self (d : DeliveryNo) (f : Delivery → Delivery) :
    (updEntry d f s).du.entries[d.val] = f s.du.entries[d.val] := by simp [updEntry]

theorem updEntry_entries_ne {d e : DeliveryNo} (f : Delivery → Delivery) (h : e ≠ d) :
    (updEntry d f s).du.entries[e.val] = s.du.entries[e.val] := by
  have : d.val ≠ e.val := fun k => h (Fin.ext k.symm)
  simp [updEntry, this]

@[simp] theorem updTransit_transit_self (t : TransitNo) (f : Transit → Transit) :
    (updTransit t f s).du.transit[t.val] = f s.du.transit[t.val] := by simp [updTransit]

theorem updTransit_transit_ne {t u : TransitNo} (f : Transit → Transit) (h : u ≠ t) :
    (updTransit t f s).du.transit[u.val] = s.du.transit[u.val] := by
  have : t.val ≠ u.val := fun k => h (Fin.ext k.symm)
  simp [updTransit, this]

@[simp] theorem updQueue_queues_self (n : LineNo) (f : List DeliveryNo → List DeliveryNo) :
    (updQueue n f s).du.queues[n.val] = f s.du.queues[n.val] := by simp [updQueue]

theorem updQueue_queues_ne {n m : LineNo} (f : List DeliveryNo → List DeliveryNo) (h : m ≠ n) :
    (updQueue n f s).du.queues[m.val] = s.du.queues[m.val] := by
  have : n.val ≠ m.val := fun k => h (Fin.ext k.symm)
  simp [updQueue, this]

@[simp] theorem setActive_active_self (n : LineNo) (a : Option DeliveryNo) : (setActive n a s).du.active[n.val] = a := by
  simp [setActive]

theorem setActive_active_ne {n m : LineNo} (a : Option DeliveryNo) (h : m ≠ n) :
    (setActive n a s).du.active[m.val] = s.du.active[m.val] := by
  have : n.val ≠ m.val := fun k => h (Fin.ext k.symm)
  simp [setActive, this]

end Sys2Proof.Machine
end

