-- ==== Sys2Proof/Laws/Frame.lean ====
section
/-! SUPPORT. The frame of the part's shared operations. `Within s t` says everything that an operation inside an event can
do to what it does not own: the queue of commands, the pins, the store, the two station tables, the office (but for the
serial counter), the size of the block map, the receive FIFOs (which only shrink) and the Store Port (whose queue never
passes 64 places, and only grows while a store cycle is in progress). Each shared operation has one lemma. -/

namespace Sys2Proof.Machine

/-- What an operation inside an event leaves of the state `s` it began in. -/
structure Within (s t : State) : Prop where
  pending : t.pending = s.pending
  inputs : t.inputs = s.inputs
  pins : t.pins = s.pins
  resetIn : t.resetIn = s.resetIn
  freeCount : s.freeCount ≤ t.freeCount
  path : t.path = s.path
  store : t.store = s.store
  router : t.router = s.router
  office : { t.office with serial := s.office.serial } = s.office
  mapLength : t.pool.map.length = s.pool.map.length
  fifo : ∀ n : LineNo, (t.lines[n.val]).rx.fifo.length ≤ (s.lines[n.val]).rx.fifo.length
  queue : s.port.queue.length ≤ Config.queuePlaces → t.port.queue.length ≤ Config.queuePlaces
  busy : s.port.cycle.isSome →
    t.port.cycle = s.port.cycle ∧ t.port.fwd = s.port.fwd ∧ s.port.queue <+: t.port.queue

theorem Within.refl (s : State) : Within s s where
  pending := rfl
  inputs := rfl
  pins := rfl
  resetIn := rfl
  freeCount := Nat.le_refl _
  path := rfl
  store := rfl
  router := rfl
  office := rfl
  mapLength := rfl
  fifo _ := Nat.le_refl _
  queue := id
  busy _ := ⟨rfl, rfl, List.prefix_refl _⟩

theorem Within.trans {s t u : State} (h : Within s t) (k : Within t u) : Within s u where
  pending := k.pending.trans h.pending
  inputs := k.inputs.trans h.inputs
  pins := k.pins.trans h.pins
  resetIn := k.resetIn.trans h.resetIn
  freeCount := h.freeCount.trans k.freeCount
  path := k.path.trans h.path
  store := k.store.trans h.store
  router := k.router.trans h.router
  office := by rw [← h.office, ← k.office]
  mapLength := k.mapLength.trans h.mapLength
  fifo n := (k.fifo n).trans (h.fifo n)
  queue q := k.queue (h.queue q)
  busy c := by
    obtain ⟨h1, h2, h3⟩ := h.busy c
    obtain ⟨k1, k2, k3⟩ := k.busy (by rw [h1]; exact c)
    exact ⟨k1.trans h1, k2.trans h2, h3.trans k3⟩

variable {s u : State}

/-! ## Updates -/

theorem within_lines (h : Within s u) (v : Vector LineUnit 24)
    (hf : ∀ n : LineNo, (v[n.val]).rx.fifo.length ≤ (u.lines[n.val]).rx.fifo.length) :
    Within s { u with lines := v } :=
  h.trans { Within.refl u with fifo := hf }

theorem within_updLine (h : Within s u) (n : LineNo) (f : LineUnit → LineUnit)
    (hf : ∀ l, (f l).rx.fifo.length ≤ l.rx.fifo.length) : Within s (updLine n f u) :=
  within_lines h _ fun m => by
    by_cases e : m = n
    · subst e; simpa using hf _
    · exact Nat.le_of_eq (congrArg (fun l => l.rx.fifo.length) (updLine_lines_ne u f e))

theorem within_updRx (h : Within s u) (n : LineNo) (f : Receiver → Receiver)
    (hf : ∀ r, (f r).fifo.length ≤ r.fifo.length) : Within s (updRx n f u) :=
  within_updLine h n _ fun l => hf l.rx

theorem within_updAsm (h : Within s u) (n : LineNo) (f : Assembly → Assembly) : Within s (updAsm n f u) :=
  within_updRx h n _ fun _ => Nat.le_refl _

theorem within_updTx (h : Within s u) (n : LineNo) (f : Transmitter → Transmitter) : Within s (updTx n f u) :=
  within_updLine h n _ fun _ => Nat.le_refl _

theorem within_du (h : Within s u) (d : DeliveryUnit) : Within s { u with du := d } :=
  h.trans { Within.refl u with }

theorem within_updEntry (h : Within s u) (d : DeliveryNo) (f : Delivery → Delivery) : Within s (updEntry d f u) :=
  within_du h _

theorem within_updTransit (h : Within s u) (t : TransitNo) (f : Transit → Transit) : Within s (updTransit t f u) :=
  within_du h _

theorem within_updQueue (h : Within s u) (n : LineNo) (f : List DeliveryNo → List DeliveryNo) :
    Within s (updQueue n f u) := within_du h _

theorem within_setActive (h : Within s u) (n : LineNo) (a : Option DeliveryNo) : Within s (setActive n a u) :=
  within_du h _

theorem within_updRewrites (h : Within s u) (f : List Rewrite → List Rewrite) : Within s (updRewrites f u) :=
  within_du h _

theorem within_updReport (h : Within s u) (f : ReportUnit → ReportUnit) : Within s (updReport f u) :=
  h.trans { Within.refl u with }

theorem within_updWalker (h : Within s u) (f : ChainWalker → ChainWalker) : Within s (updWalker f u) :=
  h.trans { Within.refl u with }

theorem within_post (h : Within s u) (l : List Word) : Within s { u with post := l } := h.trans { Within.refl u with }

theorem within_updPool (h : Within s u) (f : PoolUnit → PoolUnit) (hf : (f u.pool).map.length = u.pool.map.length) :
    Within s (updPool f u) := h.trans { Within.refl u with mapLength := hf }

theorem within_setBlock (h : Within s u) (b : Nat) (v : BlockState) : Within s (setBlock b v u) :=
  h.trans { Within.refl u with mapLength := List.length_set }

theorem within_serial (h : Within s u) (f : OfficeControl → OfficeControl)
    (hf : { f u.office with serial := u.office.serial } = u.office) : Within s (updOffice f u) :=
  h.trans { Within.refl u with office := hf }

theorem within_waiting (h : Within s u) (l : List Issuer) : Within s (updPort (fun p => { p with waiting := l }) u) :=
  h.trans { Within.refl u with }

/-! ## The Store Port -/

/-- A cycle in progress is not disturbed; a free bus takes the forwarded access or the queue's head (R10). -/
theorem within_startCycle (h : Within s u) : Within s (startCycle u) := by
  refine h.trans ?_
  unfold startCycle
  split
  · exact Within.refl u
  · next hc =>
    have nb : ¬ u.port.cycle.isSome := by simp [hc]
    split
    · exact Within.refl u
    · exact { Within.refl u with busy := fun c => absurd c nb }
    · next hq => exact { Within.refl u with busy := fun c => absurd c nb, queue := fun q => by simp_all; omega }
    · next hq =>
      split
      · exact { Within.refl u with busy := fun c => absurd c nb }
      · exact { Within.refl u with busy := fun c => absurd c nb, queue := fun q => by simp_all; omega }

theorem within_place (h : Within s u) (r : Req) (hq : u.port.queue.length < Config.queuePlaces) :
    Within s (place r u) := by
  unfold place
  refine within_startCycle (h.trans { Within.refl u with queue := fun _ => ?_, busy := fun _ => ?_ })
  · simp; omega
  · exact ⟨rfl, rfl, List.prefix_append _ _⟩

theorem admits_room (ha : admits u = true) : u.port.queue.length < Config.queuePlaces := by
  unfold admits at ha; simp_all

theorem within_waitFor (h : Within s u) (i : Issuer) : Within s (waitFor i u) := by
  unfold waitFor; split
  · exact h
  · exact within_waiting h _

theorem within_leaveWaiting (h : Within s u) (i : Issuer) : Within s (leaveWaiting i u) := within_waiting h _

theorem within_pump (h : Within s u) (i : Issuer) (next : State → Option Req) (placed : State → State)
    (hp : ∀ {s u : State}, Within s u → Within s (placed u)) (k : Nat) : Within s (pump i next placed k u) := by
  induction k generalizing u with
  | zero => exact h
  | succ k ih =>
    unfold pump
    split
    · exact h
    · split
      · next ha => exact ih (hp (within_place h _ (admits_room ha)))
      · exact within_waitFor h i

/-! ## Reports and walk requests -/

theorem within_reportWordPlaced (h : Within s u) : Within s (reportWordPlaced u) := within_updReport h _

theorem within_pumpReport (h : Within s u) : Within s (pumpReport u) :=
  within_pump h _ _ _ (fun h => within_reportWordPlaced h) _

theorem within_acceptReport (h : Within s u) (r : Record) : Within s (acceptReport r u) := by
  unfold acceptReport; split <;> exact within_updReport h _

theorem within_takeReport (h : Within s u) (r : Record) : Within s (takeReport r u) :=
  within_pumpReport (within_acceptReport h r)

theorem within_offerReport (h : Within s u) (r : Record) : Within s (offerReport r u) := within_updReport h _

theorem within_offerAttached (h : Within s u) (rs : List Record) (w : Option WalkRequest) :
    Within s (offerAttached rs w u) := within_updReport h _

theorem within_foldl {α : Type} (f : State → α → State) (hf : ∀ {s u : State} (a : α), Within s u → Within s (f u a))
    (l : List α) (h : Within s u) : Within s (l.foldl f u) := by
  induction l generalizing u with
  | nil => exact h
  | cons a l ih => exact ih (hf a h)

theorem within_takeUntil (h : Within s u) (p : Offer → Bool) : Within s (takeUntil p u) := by
  unfold takeUntil; dsimp only
  split
  · refine within_foldl _ (fun o h => within_takeReport h o.record) _ (h.trans { Within.refl u with freeCount := ?_ })
    dsimp only
    split <;> omega
  · exact h

theorem within_takeOffers (h : Within s u) : Within s (takeOffers u) := within_takeUntil h _

theorem within_takeBefore (h : Within s u) (r : WalkRequest) : Within s (takeBefore r u) := within_takeUntil h _

theorem within_askWalk (h : Within s u) (r : WalkRequest) : Within s (askWalk r u) := within_updWalker h _

theorem within_walkRequestPlaced (h : Within s u) (r : Req) : Within s (walkRequestPlaced r u) := within_updWalker h _

theorem within_pumpWalkerRounds (h : Within s u) (k : Nat) : Within s (pumpWalkerRounds k u) := by
  induction k generalizing u with
  | zero => exact h
  | succ k ih =>
    unfold pumpWalkerRounds
    split
    · exact h
    · split
      · exact h
      · split
        · next ha => exact ih (within_walkRequestPlaced (within_place h _ (admits_room ha)) _)
        · exact within_waitFor (within_updWalker h _) _

theorem within_pumpWalker (h : Within s u) : Within s (pumpWalker u) := within_pumpWalkerRounds h _

/-! ## The Pool Unit -/

theorem within_dropLinkWrites (h : Within s u) (b : Nat) : Within s (dropLinkWrites b u) := by
  unfold dropLinkWrites; dsimp only
  split
  · exact within_updWalker h _
  · split
    · split
      · exact within_updWalker (within_updWalker h _) _
      · exact within_leaveWaiting (within_updWalker (within_updWalker h _) _) _
    · exact within_updWalker h _

theorem within_takeFree (h : Within s u) {v : BlockState} {b : Nat} {t : State} (e : takeFree v u = some (b, t)) :
    Within s t := by
  unfold takeFree at e
  split at e
  · cases e
  · cases e
    exact within_dropLinkWrites (within_setBlock (within_updPool h _ rfl) _ _) _

theorem within_requestBlock (h : Within s u) (n : LineNo) : Within s (requestBlock n u).2 := by
  unfold requestBlock
  split
  · next e => exact within_takeFree h e
  · dsimp only
    split
    · exact h
    · exact within_updPool h _ rfl

theorem within_leaveStarved (h : Within s u) (n : LineNo) : Within s (leaveStarved n u) := within_updPool h _ rfl

theorem within_joinFree (h : Within s u) (b : Nat) : Within s (joinFree b u) := by
  unfold joinFree; dsimp only
  split
  · exact within_setBlock (within_updPool h _ rfl) _ _
  · exact within_pumpWalker (within_updWalker (within_setBlock (within_updPool h _ rfl) _ _) _)

theorem within_guardViolation (h : Within s u) (cause : Nat) (b d : Word) : Within s (guardViolation cause b d u) :=
  within_offerReport h _

theorem within_claimBlock (h : Within s u) : Within s (claimBlock u).2 := by
  unfold claimBlock
  split
  · next e => exact within_takeFree h e
  · exact h

/-! ## The Delivery Unit -/

theorem within_rewritePlaced (h : Within s u) : Within s (rewritePlaced u) := by
  unfold rewritePlaced
  split
  · exact h
  · dsimp only
    split
    · exact within_offerAttached (within_updRewrites h _) _ _
    · exact within_askWalk (within_offerAttached (within_updRewrites h _) _ _) _

theorem within_pumpDelivery (h : Within s u) : Within s (pumpDelivery u) :=
  within_pump h _ _ _ (fun h => within_rewritePlaced h) _

theorem within_reportWithoutCount (h : Within s u) (t : TransitNo) (r : Record) :
    Within s (reportWithoutCount t r u) := by
  unfold reportWithoutCount
  split
  · exact within_updRewrites h _
  · exact within_offerReport h r

theorem within_changeCount (h : Within s u) (t : TransitNo) (c : Nat) (rs : List Record) :
    Within s (changeCount t c rs u) :=
  within_pumpDelivery (within_updRewrites (within_updTransit h _ _) _)

theorem within_clearActive (h : Within s u) (n : LineNo) (d : DeliveryNo) : Within s (clearActive n d u) := by
  unfold clearActive; split
  · exact within_setActive h _ _
  · exact h

theorem within_freeEntry (h : Within s u) (d : DeliveryNo) (rs : List Record) : Within s (freeEntry d rs u) :=
  within_changeCount (within_clearActive (within_updQueue (within_updEntry h _ _) _ _) _ _) _ _ _

theorem within_cancelEntry (h : Within s u) (d : DeliveryNo) : Within s (cancelEntry d u) := within_freeEntry h _ _

theorem within_completeEntry (h : Within s u) (d : DeliveryNo) : Within s (completeEntry d u) := within_freeEntry h _ _

theorem within_returnToHead (h : Within s u) (d : DeliveryNo) (f : Delivery → Delivery) :
    Within s (returnToHead d f u) :=
  within_clearActive (within_updQueue (within_updEntry h _ _) _ _) _ _

theorem within_reportInterrupted (h : Within s u) (d : DeliveryNo) (r : Nat) : Within s (reportInterrupted d r u) :=
  within_reportWithoutCount h _ _

theorem within_interruptEntry (h : Within s u) (d : DeliveryNo) (r : Nat) (b : Bool) :
    Within s (interruptEntry d r b u) := by
  unfold interruptEntry; split
  · exact within_cancelEntry h d
  · exact within_reportInterrupted (within_returnToHead h _ _) _ _

theorem within_failEntry (h : Within s u) (d : DeliveryNo) (r : Nat) : Within s (failEntry d r u) :=
  within_freeEntry h _ _

theorem within_failedTryEntry (h : Within s u) (d : DeliveryNo) (b : Bool) : Within s (failedTryEntry d b u) := by
  unfold failedTryEntry
  split
  · exact within_cancelEntry h d
  · split
    · exact within_reportInterrupted (within_returnToHead h _ _) _ _
    · exact within_failEntry (within_reportInterrupted h _ _) _ _

theorem within_setAsideEntry (h : Within s u) (d : DeliveryNo) : Within s (setAsideEntry d u) := by
  unfold setAsideEntry; dsimp only
  split
  · exact within_cancelEntry h d
  · split
    · exact within_clearActive (within_updEntry h _ _) _ _
    · exact within_failEntry h _ _

theorem within_reportStationFailed (h : Within s u) (d : DeliveryNo) (r : Nat) (m : Member) :
    Within s (reportStationFailed d r m u) := within_reportWithoutCount h _ _

theorem within_splitUnanswered (h : Within s u) (d : DeliveryNo) : Within s (splitUnanswered d u) := by
  unfold splitUnanswered; dsimp only
  split
  · exact within_foldl _ (fun m h => within_reportStationFailed h _ _ m) _ (within_updEntry h _ _)
  · split
    · exact within_foldl _ (fun m h => within_reportStationFailed h _ _ m) _ (within_updEntry h _ _)
    · exact within_changeCount (within_updEntry (within_updEntry h _ _) _ _) _ _ _

theorem within_setAnswered (h : Within s u) (d : DeliveryNo) (p : Nat) : Within s (setAnswered d p u) :=
  within_updEntry h _ _

theorem within_makeActive (h : Within s u) (n : LineNo) (d : DeliveryNo) : Within s (makeActive n d u) :=
  within_setActive (within_updQueue (within_updEntry h _ _) _ _) _ _

/-! ## Transmitters -/

theorem within_beginSending (h : Within s u) (n : LineNo) (k : SendKind) : Within s (beginSending n k u) :=
  within_updTx h _ _

theorem within_abandonSending (h : Within s u) (n : LineNo) : Within s (abandonSending n u) := within_updTx h _ _

theorem within_pumpTx (h : Within s u) (n : LineNo) : Within s (pumpTx n u) :=
  within_pump h _ _ _ (fun h => within_updTx h _ _) _

theorem within_offerReads (h : Within s u) (n : LineNo) (rs : List Req) : Within s (offerReads n rs u) :=
  within_pumpTx (within_updTx h _ _) n

theorem within_dropReads (h : Within s u) (n : LineNo) : Within s (dropReads n u) :=
  within_leaveWaiting (within_updTx h _ _) _

theorem within_advanceText (h : Within s u) (n : LineNo) : Within s (advanceText n u) := by
  unfold advanceText; dsimp only
  split
  · exact within_offerReads (within_updTx h _ _) _ _
  · exact within_updTx h _ _

theorem within_beginNext (h : Within s u) (n : LineNo) : Within s (beginNext n u) := by
  unfold beginNext; dsimp only
  split
  · exact within_beginSending (within_updTx h _ _) _ _
  · exact within_beginSending (within_updTx h _ _) _ _
  · split
    · split
      · exact within_beginSending (within_updTx h _ _) _ _
      · split
        · split
          · exact within_advanceText (within_beginSending (within_updTx h _ _) _ _) _
          · exact within_abandonSending h _
        · exact within_abandonSending h _
    · exact within_abandonSending h _

theorem within_enterSending (h : Within s u) (n : LineNo) (k : Hand) : Within s (enterSending n k u) :=
  within_offerReads (within_updTx h _ _) _ _

theorem within_enterCalling (h : Within s u) (n : LineNo) (p : Nat) (m : Member) : Within s (enterCalling n p m u) :=
  within_updTx h _ _

theorem within_takeDelivery (h : Within s u) (n : LineNo) (d : DeliveryNo) : Within s (takeDelivery n d u) := by
  unfold takeDelivery; dsimp only
  split
  · exact within_enterCalling (within_updTx (within_makeActive h _ _) _ _) _ _ _
  · exact within_enterSending (within_updTx (within_makeActive h _ _) _ _) _ _

theorem within_selectOr (h : Within s u) (n : LineNo) (f : State → State)
    (hf : ∀ {s u : State}, Within s u → Within s (f u)) : Within s (selectOr n f u) := by
  unfold selectOr; split
  · exact within_takeDelivery h _ _
  · exact hf h

theorem within_tellQueue (h : Within s u) (n : LineNo) : Within s (tellQueue n u) := by
  unfold tellQueue; split
  · exact within_updTx h _ _
  · exact h

theorem within_idleOccasion (h : Within s u) (n : LineNo) : Within s (idleOccasion n u) := by
  unfold idleOccasion; split
  · exact within_selectOr h _ _ (fun h => h)
  · exact within_tellQueue h _

theorem within_transferSettings (h : Within s u) (n : LineNo) : Within s (transferSettings n u) :=
  within_updLine h _ _ (by intro _; exact Nat.le_refl _)

theorem within_enterPause (h : Within s u) (n : LineNo) : Within s (enterPause n u) := within_updTx h _ _

theorem within_arriveIdle (h : Within s u) (n : LineNo) : Within s (arriveIdle n u) := by
  unfold arriveIdle; split
  · exact within_enterPause h _
  · exact within_idleOccasion (within_updTx h _ _) _

theorem within_transferIfIdle (h : Within s u) (n : LineNo) : Within s (transferIfIdle n u) := by
  unfold transferIfIdle; split
  · exact within_transferSettings h _
  · exact h

theorem within_enterIdle (h : Within s u) (n : LineNo) : Within s (enterIdle n u) := by
  unfold enterIdle; split
  · exact within_enterPause h _
  · exact within_arriveIdle (within_transferIfIdle (within_updTx h _ _) _) _

theorem within_checkIdlePoint (h : Within s u) (n : LineNo) : Within s (checkIdlePoint n u) := by
  unfold checkIdlePoint; dsimp only
  split
  · split
    · exact within_arriveIdle (within_transferSettings h _) _
    · exact within_transferSettings h _
  · exact h

theorem within_dropHand (h : Within s u) (n : LineNo) : Within s (dropHand n u) :=
  within_dropReads (within_updTx h _ _) _

theorem within_enterBreakIn (h : Within s u) (n : LineNo) : Within s (enterBreakIn n u) := within_updTx h _ _

theorem within_failTryToHead (h : Within s u) (n : LineNo) (k : Hand) : Within s (failTryToHead n k u) :=
  within_enterIdle (within_updTx (within_dropHand (within_failedTryEntry h _ _) _) _ _) _

theorem within_cancelAtBoundary (h : Within s u) (n : LineNo) (k : Hand) : Within s (cancelAtBoundary n k u) :=
  within_enterBreakIn (within_dropHand (within_cancelEntry h _) _) _

theorem within_preemptVictim (h : Within s u) (n : LineNo) (k : Hand) : Within s (preemptVictim n k u) :=
  within_enterBreakIn (within_dropHand (within_interruptEntry h _ _ _) _) _

theorem within_deferredRequest (h : Within s u) {n : LineNo} {t : State} (e : deferredRequest n u = some t) :
    Within s t := by
  unfold deferredRequest at e; dsimp only at e
  split at e
  · cases e
  · split at e
    · cases e; exact within_failTryToHead h _ _
    · split at e
      · cases e; exact within_cancelAtBoundary h _ _
      · split at e
        · cases e; exact within_preemptVictim h _ _
        · cases e

theorem within_deferredOr (h : Within s u) (n : LineNo) : Within s ((deferredRequest n u).getD u) := by
  cases e : deferredRequest n u with
  | none => exact h
  | some t => exact within_deferredRequest h e

theorem within_preemptionTest (h : Within s u) (n : LineNo) : Within s (preemptionTest n u) := by
  unfold preemptionTest; dsimp only
  split
  · exact h
  · split
    · split
      · exact within_deferredOr (within_updTx h _ _) _
      · exact within_updTx h _ _
    · exact h

theorem within_enqueue (h : Within s u) (d : DeliveryNo) : Within s (enqueue d u) := by
  unfold enqueue; dsimp only
  split <;> split <;>
    first
    | exact within_idleOccasion (within_preemptionTest (within_updQueue h _ _) _) _
    | exact within_preemptionTest (within_updQueue h _ _) _
    | exact within_idleOccasion (within_updQueue h _ _) _
    | exact within_updQueue h _ _

theorem within_releaseOne (h : Within s u) (d : DeliveryNo) : Within s (releaseOne d u) := by
  unfold releaseOne; dsimp only
  split
  · exact within_enqueue (within_updEntry h _ _) _
  · exact h

theorem within_releaseWaiting (h : Within s u) : Within s (releaseWaiting u) :=
  within_foldl _ (fun d h => within_releaseOne h d) _ h

/-! ## Routing -/

theorem within_makeDeliveries (h : Within s u) (t : TransitNo) (c : Nat) (plan : List Planned) :
    Within s (makeDeliveries t c plan u) :=
  within_foldl _ (fun _ h => within_enqueue h _) _ (within_foldl _ (fun _ h => within_updEntry h _ _) _ h)

theorem within_holdMessage (h : Within s u) (m : MessageRecord) (r : Nat) : Within s (holdMessage m r u) :=
  within_askWalk h _

theorem within_makeRouted (h : Within s u) (m : MessageRecord) (plan : List Planned) (t : TransitNo) :
    Within s (makeRouted m plan t u) :=
  within_offerReport (within_changeCount (within_makeDeliveries (within_updTransit h _ _) _ _ _) _ _ _) _

theorem within_routeMessage (h : Within s u) (m : MessageRecord) : Within s (routeMessage m u) := by
  unfold routeMessage; dsimp only
  split
  · exact within_holdMessage h _ _
  · split
    · exact within_holdMessage h _ _
    · split
      · exact within_holdMessage h _ _
      · exact within_makeRouted h _ _ _

/-! ## Receivers -/

theorem within_handOff (h : Within s u) (n : LineNo) : Within s (handOff n u) := by
  unfold handOff; dsimp only
  refine within_checkIdlePoint (within_updRx ?_ _ _ (by intro _; exact Nat.le_refl _)) _
  split
  · exact within_askWalk h _
  · split
    · exact within_askWalk h _
    · exact within_routeMessage h _

theorem within_rxPlaced (h : Within s u) (n : LineNo) (p : Purpose) : Within s (rxPlaced n p u) := by
  unfold rxPlaced; split
  · exact within_handOff h _
  · exact h

theorem within_rxOffer (h : Within s u) (n : LineNo) (r : Req) : Within s (rxOffer n r u) := by
  unfold rxOffer; split
  · next ha => exact within_rxPlaced (within_place h _ (admits_room ha)) _ _
  · exact within_waitFor (within_updRx h _ _ (by intro _; exact Nat.le_refl _)) _

theorem within_assignBlock (h : Within s u) (n : LineNo) (b : Nat) : Within s (assignBlock n b u) := by
  unfold assignBlock; dsimp only
  split
  · exact within_updAsm h _ _
  · exact within_rxOffer (within_updAsm h _ _) _ _

theorem within_storeByte (h : Within s u) (n : LineNo) (b : Byte) : Within s (storeByte n b u) :=
  within_rxOffer (within_updAsm h _ _) _ _

theorem within_askBlock (h : Within s u) (n : LineNo) : Within s (askBlock n u) := by
  have hr := within_requestBlock h n
  unfold askBlock
  split
  · next e => rw [e] at hr; exact within_assignBlock hr _ _
  · next e => rw [e] at hr; exact hr

theorem within_ensureBlock (h : Within s u) (n : LineNo) : Within s (ensureBlock n u) := by
  unfold ensureBlock; split
  · exact within_askBlock h _
  · exact h

theorem within_rxWork (h : Within s u) {n : LineNo} {t : State} (e : rxWork n u = some t) : Within s t := by
  unfold rxWork at e; dsimp only at e
  split at e
  · cases e
  · split at e
    · split at e
      · cases e; exact within_askBlock h _
      · cases e; exact within_storeByte (within_updAsm h _ _) _ _
    · split at e
      · cases e; exact within_rxOffer (within_updRx h _ _ (by intro _; exact Nat.le_refl _)) _ _
      · cases e

theorem within_rxContinue (h : Within s u) (k : Nat) (n : LineNo) : Within s (rxContinue k n u) := by
  induction k generalizing u with
  | zero => exact h
  | succ k ih =>
    unfold rxContinue; split
    · exact h
    · next e => exact ih (within_rxWork h e)

theorem within_giveBlock (h : Within s u) (n : LineNo) (b : Nat) : Within s (giveBlock n b u) :=
  within_rxContinue (within_assignBlock h _ _) _ _

theorem within_returnBlock (h : Within s u) (b : Nat) : Within s (returnBlock b u) := by
  unfold returnBlock; split
  · exact within_joinFree h _
  · exact within_giveBlock (within_setBlock (within_updPool h _ rfl) _ _) _ _

theorem gapStep_fifo (r : Receiver) : (gapStep r).fifo.length ≤ r.fifo.length := by
  unfold gapStep; dsimp only; split <;> simp

theorem popEntry_fifo (e : FifoEntry) (r : Receiver) : (popEntry e r).fifo.length ≤ r.fifo.length := by simp [popEntry]

theorem headerCharacter_fifo (k : HeldSetup) (c : Code) (r : Receiver) : (headerCharacter k c r).fifo = r.fifo := by
  unfold headerCharacter; dsimp only; split
  · rfl
  · split <;> split <;> rfl

theorem within_acceptSom (h : Within s u) (n : LineNo) : Within s (acceptSom n u) :=
  within_rxContinue (within_updRx (within_serial h _ rfl) _ _ (by intro _; exact Nat.le_refl _)) _ _

theorem within_afterStore (h : Within s u) (n : LineNo) (c : Code) (b : Bool) : Within s (afterStore n c b u) := by
  unfold afterStore; dsimp only
  refine within_rxContinue (within_updRx h _ _ fun r => ?_) _ _
  split <;> split <;> simp [closeByEom, headerCharacter_fifo]

theorem within_takeHunting (h : Within s u) (n : LineNo) (e : FifoEntry) : Within s (takeHunting n e u) := by
  unfold takeHunting; dsimp only
  split
  · exact within_acceptSom (within_updRx h _ _ (by intro r; exact popEntry_fifo e r)) _
  · exact within_updRx h _ _ (by intro r; exact popEntry_fifo e r)

theorem within_takeMessage (h : Within s u) (n : LineNo) (e : FifoEntry) : Within s (takeMessage n e u) := by
  unfold takeMessage; dsimp only
  split
  · exact within_afterStore (within_updRx h _ _ (by intro r; exact popEntry_fifo e r)) _ _ _
  · have hb := within_ensureBlock h n
    generalize ensureBlock n u = v at hb ⊢
    split
    · exact within_afterStore (within_storeByte (within_updRx hb _ _ (by intro r; exact popEntry_fifo e r)) _ _) _ _ _
    · exact hb

theorem within_takeEntry (h : Within s u) (n : LineNo) : Within s (takeEntry n u) := by
  unfold takeEntry
  split
  · exact h
  · next e _ _ =>
    have hg : Within s (if e.gapBefore then rxContinue rxRounds n (updRx n gapStep u) else u) := by
      split
      · exact within_rxContinue (within_updRx h _ _ gapStep_fifo) _ _
      · exact h
    dsimp only
    generalize (if e.gapBefore then rxContinue rxRounds n (updRx n gapStep u) else u) = v at hg ⊢
    split
    · split
      · exact within_takeHunting hg _ _
      · exact within_takeMessage hg _ _
    · exact hg

theorem within_idleCloseMessage (h : Within s u) (n : LineNo) : Within s (idleCloseMessage n u) :=
  within_rxContinue (within_updRx h _ _ (by intro _; exact Nat.le_refl _)) _ _

theorem within_giveAbandoned (h : Within s u) (n : LineNo) : Within s (giveAbandoned n u) :=
  within_foldl _ (fun _ h => within_askWalk h _) _ (within_updRx h _ _ (by intro _; exact Nat.le_refl _))

theorem within_rxCompleted (h : Within s u) (n : LineNo) : Within s (rxCompleted n u) :=
  within_giveAbandoned (within_updRx h _ _ (by intro _; exact Nat.le_refl _)) _

theorem clearReceiver_fifo (st : RxState) (r : Receiver) : (clearReceiver st r).fifo.length ≤ r.fifo.length :=
  Nat.zero_le _

theorem within_abandonChain (h : Within s u) (n : LineNo) : Within s (abandonChain n u) := by
  have h1 : Within s (leaveWaiting (.receiver n) (leaveStarved n (updRx n (fun r => { r with unplaced := none }) u))) :=
    within_leaveWaiting (within_leaveStarved (within_updRx h _ _ (by intro _; exact Nat.le_refl _)) _) _
  unfold abandonChain; dsimp only
  generalize leaveWaiting _ _ = v at h1 ⊢
  have h2 : Within s (if hasUnlinked (u.lines[n]).rx then returnBlock ((u.lines[n]).rx.asm.current.getD 0) v else v) := by
    split
    · exact within_returnBlock h1 _
    · exact h1
  generalize (if hasUnlinked (u.lines[n]).rx then returnBlock ((u.lines[n]).rx.asm.current.getD 0) v else v) = x
    at h2 ⊢
  split
  · exact within_giveAbandoned (within_updRx h2 _ _ (by intro _; exact Nat.le_refl _)) _
  · exact within_offerReport h2 _

theorem within_breakReceiver (h : Within s u) (n : LineNo) : Within s (breakReceiver n u) := by
  unfold breakReceiver; dsimp only
  split
  · exact within_checkIdlePoint (within_updRx (within_abandonChain h _) _ _ (clearReceiver_fifo _)) _
  · exact h

theorem within_receiverOff (h : Within s u) (n : LineNo) : Within s (receiverOff n u) := by
  unfold receiverOff; dsimp only
  split
  · exact within_updLine (within_abandonChain h _) _ _ fun l => clearReceiver_fifo _ l.rx
  · exact within_updLine h _ _ fun l => clearReceiver_fifo _ l.rx

/-! ## Lines -/

theorem within_giveBackHand (h : Within s u) (n : LineNo) (r : Nat) : Within s (giveBackHand n r u) := by
  unfold giveBackHand; split
  · exact within_interruptEntry h _ _ _
  · exact h

theorem within_transmitterOff (h : Within s u) (n : LineNo) : Within s (transmitterOff n u) :=
  within_leaveWaiting (within_updLine h _ _ (by intro _; exact Nat.le_refl _)) _

theorem within_goOff (h : Within s u) (n : LineNo) : Within s (goOff n u) :=
  within_transmitterOff (within_receiverOff (within_updTx (within_dropHand h _) _ _) _) _

theorem within_disableTakesEffect (h : Within s u) (n : LineNo) : Within s (disableTakesEffect n u) :=
  within_checkIdlePoint (within_goOff (within_giveBackHand h _ _) _) _

theorem within_resetLine (h : Within s u) (n : LineNo) : Within s (resetLine n u) := by
  unfold resetLine; dsimp only
  refine within_checkIdlePoint (within_updLine ?_ _ _ (by intro _; exact Nat.zero_le _)) _
  split
  · exact within_goOff (within_giveBackHand (within_abandonSending h _) _ _) _
  · exact h

theorem within_disableLine (h : Within s u) (n : LineNo) : Within s (disableLine n u) := by
  unfold disableLine; dsimp only
  split
  · exact h
  · split
    · exact within_updTx h _ _
    · exact within_disableTakesEffect h _

theorem within_enableLine (h : Within s u) (n : LineNo) : Within s (enableLine n u) := by
  unfold enableLine; split
  · exact within_updLine h _ _ (by intro _; exact Nat.zero_le _)
  · exact h

theorem within_lineControl (h : Within s u) (n : LineNo) (v : Word) : Within s (lineControl n v u) := by
  unfold lineControl
  split
  · exact within_enableLine h _
  · split
    · exact within_disableLine h _
    · split
      · exact within_resetLine h _
      · exact h

theorem within_lineSettings (h : Within s u) (n : LineNo) (v : Word) : Within s (lineSettings n v u) :=
  within_checkIdlePoint (within_updLine h _ _ (by intro _; exact Nat.le_refl _)) _

theorem within_completeDelivery (h : Within s u) (n : LineNo) (k : Hand) : Within s (completeDelivery n k u) := by
  unfold completeDelivery; dsimp only
  split
  · exact within_disableTakesEffect (within_updTx (within_dropHand (within_completeEntry h _) _) _ _) _
  · exact within_enterIdle (within_updTx (within_dropHand (within_completeEntry h _) _) _ _) _

theorem within_completeIfEnded (h : Within s u) (n : LineNo) : Within s (completeIfEnded n u) := by
  unfold completeIfEnded; dsimp only
  split
  · split
    · exact within_completeDelivery h _ _
    · exact h
  · exact h

theorem within_examineRequests (h : Within s u) (n : LineNo) : Within s (examineRequests n u) := by
  unfold examineRequests; split
  · exact within_disableTakesEffect h _
  · exact within_deferredOr h _

theorem within_endCallSet (h : Within s u) (n : LineNo) (k : Hand) : Within s (endCallSet n k u) := by
  unfold endCallSet; dsimp only
  split
  · exact within_enterSending h _ _
  · split
    · exact within_enterSending (within_splitUnanswered h _) _ _
    · exact within_enterBreakIn (within_dropHand (within_setAsideEntry h _) _) _

theorem within_nextMember (h : Within s u) (n : LineNo) (k : Hand) (p : Nat) : Within s (nextMember n k p u) := by
  unfold nextMember; split
  · exact within_enterCalling h _ _ _
  · exact within_endCallSet h _ _

theorem within_endCall (h : Within s u) (n : LineNo) (k : Hand) (p : Nat) : Within s (endCall n k p u) := by
  unfold endCall; split
  · exact h
  · split
    · exact within_updTx h _ _
    · exact within_nextMember (within_setAnswered h _ _) _ _ _

theorem within_answerCheck (h : Within s u) (n : LineNo) (c : Code) (f : Bool) : Within s (answerCheck n c f u) := by
  unfold answerCheck; dsimp only
  split
  · split
    · exact within_updTx h _ _
    · split
      · exact h
      · split
        · exact h
        · split
          · exact within_nextMember (within_setAnswered h _ _) _ _ _
          · exact within_updTx h _ _
  · exact h

theorem within_breakTransmitter (h : Within s u) (n : LineNo) : Within s (breakTransmitter n u) := by
  unfold breakTransmitter; dsimp only
  split
  · exact h
  · split
    · exact within_enterPause h _
    · split
      · split
        · exact within_examineRequests (within_updTx h _ _) _
        · exact within_updTx h _ _
      · exact h

theorem within_latchLine (h : Within s u) (n : LineNo) : Within s (latchLine n u) := by
  unfold latchLine; dsimp only
  split
  · have hd := within_updTx (within_dropHand (within_giveBackHand (within_abandonSending h n) n 6) n) n
      (fun t => { t with breakInPending := false, owed := none })
    split
    · exact within_disableTakesEffect hd _
    · exact within_updTx hd _ _
  · exact h

theorem within_releaseLine (h : Within s u) (n : LineNo) : Within s (releaseLine n u) := by
  unfold releaseLine; split
  · exact within_updTx h _ _
  · exact h

theorem within_onAllLines (f : LineNo → State → State)
    (hf : ∀ {s u : State} (n : LineNo), Within s u → Within s (f n u)) (h : Within s u) : Within s (onAllLines f u) :=
  within_foldl _ (fun n h => hf n h) _ h

theorem within_setCancelPending (h : Within s u) (d : DeliveryNo) : Within s (setCancelPending d u) := by
  unfold setCancelPending; dsimp only
  split
  · exact within_examineRequests (within_updEntry h _ _) _
  · exact within_updEntry h _ _

theorem within_cancelWord (h : Within s u) (v : Word) : Within s (cancelWord v u) := by
  unfold cancelWord
  split
  · dsimp only
    split
    · exact within_offerReport h _
    · exact within_cancelEntry h _
    · exact within_cancelEntry h _
    · split
      · exact h
      · exact within_setCancelPending h _
  · exact within_offerReport h _

/-! ## The Chain Walker and the Post Unit -/

theorem within_postRefused (h : Within s u) (v : Word) (r : Nat) : Within s (postRefused v r u) :=
  within_offerReport h _

theorem within_postWord (h : Within s u) (v : Word) : Within s (postWord v u) := by
  unfold postWord; dsimp only
  split
  · exact within_postRefused h _ _
  · split
    · exact within_postRefused h _ _
    · split
      · exact within_askWalk (within_post h _) _
      · exact within_post h _

theorem within_postEnded (h : Within s u) : Within s (postEnded u) := by
  unfold postEnded; dsimp only
  split
  · exact within_askWalk (within_post h _) _
  · exact within_post h _

theorem within_clearWalk (h : Within s u) : Within s (clearWalk u) := within_updWalker h _

theorem within_freeTransit (h : Within s u) (t : Option TransitNo) : Within s (freeTransit t u) := by
  unfold freeTransit; split
  · exact within_updTransit h _ _
  · exact h

theorem within_endCounted (h : Within s u) (w : Walk) : Within s (endCounted w u) := by
  unfold endCounted; dsimp only
  split
  · exact within_offerReport (within_clearWalk h) _
  · split
    · exact within_freeTransit (within_offerReport (within_clearWalk h) _) _
    · exact within_offerReport (within_clearWalk h) _
  · exact within_freeTransit (within_offerReport (within_clearWalk h) _) _

theorem within_actOn (h : Within s u) (w : Walk) : Within s (actOn w u) := by
  unfold actOn; split
  · exact within_setBlock h _ _
  · exact within_returnBlock h _

theorem within_reachCounted (h : Within s u) (w : Walk) : Within s (reachCounted w u) := by
  unfold reachCounted actCounted; dsimp only
  split
  · exact within_endCounted h _
  · split
    · exact within_pumpWalker (within_updWalker h _)
    · exact within_endCounted (within_actOn h _) _

theorem within_failPosting (h : Within s u) (w : Walk) (r : Nat) : Within s (failPosting w r u) :=
  within_postEnded (within_clearWalk (within_postRefused (within_foldl _ (fun _ h => within_setBlock h _ _) _ h) _ _))

theorem within_reachPosting (h : Within s u) (w : Walk) (b : Nat) : Within s (reachPosting w b u) := by
  unfold reachPosting
  split
  · exact within_failPosting h _ _
  · split
    · exact within_failPosting h _ _
    · split
      · exact within_failPosting h _ _
      · exact within_pumpWalker (within_updWalker (within_setBlock h _ _) _)

theorem within_startHandOver (h : Within s u) (r : WalkRequest) : Within s (startHandOver r u) := by
  unfold startHandOver; dsimp only
  split
  · exact within_endCounted h _
  · exact within_pumpWalker (within_updWalker h _)

theorem within_startWalk (h : Within s u) (r : WalkRequest) : Within s (startWalk r u) := by
  unfold startWalk; split
  · exact within_reachPosting h _ _
  · exact within_startHandOver h _
  · exact within_reachCounted h _

theorem within_runWalker (h : Within s u) (k : Nat) : Within s (runWalker k u) := by
  induction k generalizing u with
  | zero => exact h
  | succ k ih =>
    unfold runWalker; split
    · exact ih (within_startWalk (within_takeBefore (within_updWalker h _) _) _)
    · exact h

theorem within_linkReadDone (h : Within s u) (w : Walk) (v : Word) : Within s (linkReadDone w v u) := by
  unfold linkReadDone actCounted; dsimp only
  split
  · exact within_endCounted (within_actOn h _) _
  · exact within_reachCounted (within_updWalker (within_actOn h _) _) _

theorem within_handOverHeadDone (h : Within s u) (w : Walk) : Within s (handOverHeadDone w u) := by
  unfold handOverHeadDone actCounted; dsimp only
  split
  · exact within_endCounted (within_actOn h _) _
  · exact h

theorem within_postLinkDone (h : Within s u) (w : Walk) (v : Word) : Within s (postLinkDone w v u) := by
  unfold postLinkDone; split
  · exact within_pumpWalker (within_updWalker h _)
  · exact within_reachPosting h _ _

theorem within_postHeadReadDone (h : Within s u) (w : Walk) (v : Word) : Within s (postHeadReadDone w v u) := by
  unfold postHeadReadDone; dsimp only
  split
  · exact within_updWalker h _
  · split
    · exact within_failPosting h _ _
    · exact within_pumpWalker (within_updWalker (within_serial h _ rfl) _)

theorem within_postingDone (h : Within s u) (w : Walk) : Within s (postingDone w u) :=
  within_postEnded (within_routeMessage (within_clearWalk h) _)

/-! ## The end of every event -/

theorem within_updateAttn (h : Within s u) : Within s (updateAttn u) := within_updReport h _

theorem within_settle (h : Within s u) : Within s (settle u) := by
  unfold settle; split
  · exact within_updateAttn h
  · exact within_updateAttn (within_startCycle (within_takeOffers (within_runWalker h _)))

end Sys2Proof.Machine
end

