-- ==== Sys2Proof/Laws/Events.lean ====
section
/-! SUPPORT. Events: how an event ends in a quiet state, when a processor access and a completion arise, and where the
words of the control page lie. -/

namespace Sys2Proof.Machine

/-! ## The end of an event -/

theorem runWalker_quiet (k : Nat) {s : State} (h : s.walker.walk ≠ none ∨ s.walker.queue = []) : runWalker k s = s := by
  cases k with
  | zero => rfl
  | succ k =>
    unfold runWalker
    split
    · next h1 h2 => simp [h1, h2] at h
    · rfl

/-- Until no offer at all is left every offer is taken. -/
theorem offersUntil_all (os : List Offer) : offersUntil (fun _ => true) os = os.length := by
  unfold offersUntil
  cases os.reverse <;> simp

/-- With one offer, or offers of one owner, the Report Unit takes them in the order in which they were made (R187). -/
theorem takeOffers_oneOwner {s : State} (h : oneOwner s.report.offers = true) :
    takeOffers s = s.report.offers.foldl (fun s o => takeReport o.record s)
      { s with report := { s.report with offers := [] } } := by
  unfold takeOffers takeUntil arrangeOffers
  simp only [h, if_true, offersUntil_all, List.take_length, List.drop_length]
  split
  · rfl
  · next he =>
    have e : s.report.offers = [] := by simpa [List.any_eq_true, List.eq_nil_iff_forall_not_mem] using he
    rw [e]
    show s = { s with report := { s.report with offers := [] } }
    rw [← e]

/-- Where no report that is asked for is on offer the Report Unit takes none. -/
theorem takeUntil_none {s : State} (p : Offer → Bool) (h : s.report.offers.any p = false) : takeUntil p s = s := by
  unfold takeUntil
  rw [if_neg (by simp [h])]

/-- With no report offered the Report Unit takes none. -/
theorem takeOffers_none {s : State} (h : s.report.offers = []) : takeOffers s = s := takeUntil_none _ (by rw [h]; rfl)

/-- With no report offered a walk begins at once. -/
theorem takeBefore_none {s : State} (r : WalkRequest) (h : s.report.offers = []) : takeBefore r s = s :=
  takeUntil_none _ (by rw [h]; rfl)

theorem settle_quiet {s : State} (h : Quiet s) : settle s = eventEnd s := by
  unfold settle
  rw [if_neg (by simp [h.1]), runWalker_quiet _ h.2.1, takeOffers_none h.2.2]
  rfl

theorem settle_inReset {s : State} (h : s.resetIn = true) : settle s = updateAttn s := by
  unfold settle; rw [if_pos h]

theorem event_due {f : State → State} {s : State} : event true f s = .next (settle (f s)) := rfl

/-! ## Processor accesses -/

theorem writeEvent_open {a : Addr} {w : WriteData} {s : State} (h : pwait s = false) :
    writeEvent a w s = .next (settle (processorWrite a w s)) := by
  unfold writeEvent event; simp [h]

theorem readEvent_open {a : Addr} {s : State} (h : pwait s = false) :
    readEvent a s = .next (settle (processorRead a s)) := by
  unfold readEvent event; simp [h]

theorem processorWrite_open {a : Addr} {w : WriteData} {s : State} (h : s.resetIn = false) :
    processorWrite a w s = arriveWrite a w s := by
  unfold processorWrite; simp [h]

theorem processorRead_open {a : Addr} {s : State} (h : s.resetIn = false) : processorRead a s = arriveRead a s := by
  unfold processorRead; simp [h]

theorem pageAddr_toNat (s : State) {off : Nat} (h : off < 1024) :
    (pageAddr s off).toNat = s.path.straps.toNat * 16384 + off := by
  have := s.path.straps.isLt
  unfold pageAddr
  rw [BitVec.toNat_ofNat]
  omega

/-- An offset of the control page is found again in its address (R3). -/
theorem pageOffset_pageAddr (s : State) {off : Nat} (h : off < 1024) : pageOffset s (pageAddr s off) = some off := by
  unfold pageOffset
  simp only [pageAddr_toNat s h]
  rw [if_pos ⟨by omega, by omega⟩]
  congr 1
  omega

/-- A write to a control-page offset is forwarded, and handed to the word's owner with both byte enables (R4). -/
theorem arriveWrite_page (s : State) {off : Nat} (h : off < 1024) (v : Word) (be : ByteEnables) :
    arriveWrite (pageAddr s off) ⟨v, be⟩ s =
      if be = .both then snoop off v (forward (pageWrite s off v be) s) else forward (pageWrite s off v be) s := by
  unfold arriveWrite
  simp only [pageOffset_pageAddr s h]
  rfl

/-! ## Completions -/

theorem completion_serving {p : Purpose → Bool} {f : Req → Word → State → State} {s : State} {r : Req}
    (h : Serving r s) (hp : p r.purpose = true) :
    completion p f s = .next (settle (f r (s.store.readWord r.addr) (finishRequest r s))) := by
  unfold completion
  rw [h]
  simp [event, hp]

/-- A completed request of another issuer than a receiver: the cycle ends and the store is served (R11). -/
theorem finishRequest_plain {r : Req} (s : State) (h : ∀ n, r.issuer ≠ .receiver n) :
    finishRequest r s = { ended s with store := s.store.serve r.addr r.write } := by
  unfold finishRequest
  split
  · next n e => exact absurd e (h n)
  · rfl

theorem lineEvent_due {n : LineNo} {due : LineUnit → Bool} {f : State → State} {s : State} (hr : s.resetIn = false)
    (hd : due s.lines[n] = true) : lineEvent n due f s = .next (settle (f s)) := by
  unfold lineEvent event
  rw [hr, hd]
  rfl

/-- Changing line n is setting it in the vector of lines. -/
theorem updLine_eq (n : LineNo) (f : LineUnit → LineUnit) (s : State) :
    updLine n f s = { s with lines := s.lines.set n.val (f s.lines[n]) n.isLt } := rfl

/-- With no transfer pending the idle point brings nothing about (R129). -/
theorem checkIdlePoint_settled {n : LineNo} {s : State} (h : (s.lines[n.val]).settingsPending = false) :
    checkIdlePoint n s = s := by
  unfold checkIdlePoint
  rw [if_neg]
  simp [h]

end Sys2Proof.Machine
end

