-- ==== Sys2Proof/Laws/Header.lean ====
section
/-! SUPPORT. What the header parser makes of one character (R69, R70), as a relation and as the function. -/

namespace Sys2Proof.Machine

/-- The relation of the statements is the parse of the model. -/
theorem parsed_iff {h : HeldSetup} {c : Code} {a p : Assembly} :
    Parsed h c a p ↔ p = if c = h.ltrs ∨ c = h.figs ∨ c = h.space ∨ c = h.cr then a else parseToken h c a := by
  unfold Parsed
  by_cases hp : c = h.ltrs ∨ c = h.figs ∨ c = h.space ∨ c = h.cr
  · rw [if_pos hp]
    constructor
    · rintro (⟨-, e⟩ | ⟨⟨h1, h2, h3, h4⟩, -⟩)
      · exact e
      · simp_all
    · intro e
      exact .inl ⟨by tauto, e⟩
  · rw [if_neg hp]
    have hn : c ≠ h.ltrs ∧ c ≠ h.figs ∧ c ≠ h.space ∧ c ≠ h.cr := by tauto
    obtain ⟨serial, received, first, current, blockCount, storedLength, headerCount, stage, cls, held, origin, dests, mu, tr, hf, inc, co, ar, aw⟩ := a
    cases stage
    · have key : (h.precedence.findIdx? (fun q => q == c) = none ↔ c ∉ h.precedence) := by
        rw [List.findIdx?_eq_none_iff]; constructor
        · intro hh hm; simpa using hh c hm
        · intro hh x hx; by_contra hc; simp at hc; exact hh (hc ▸ hx)
      have key2 : ∀ k, h.precedence.findIdx? (fun q => q == c) = some k ↔
          h.precedence[k]? = some c ∧ ∀ j, j < k → h.precedence[j]? ≠ some c := by
        intro k
        rw [List.findIdx?_eq_some_iff_getElem]
        constructor
        · rintro ⟨hk, hc, hj⟩
          refine ⟨by simpa [List.getElem?_eq_getElem hk] using hc, fun j hjk e => ?_⟩
          have := hj j hjk
          rw [List.getElem?_eq_getElem (by omega)] at e
          simp_all
        · rintro ⟨hk, hj⟩
          obtain ⟨hl, hk⟩ := List.getElem?_eq_some_iff.1 hk
          refine ⟨hl, by simpa using hk, fun j hjk => ?_⟩
          have := hj j hjk
          rw [List.getElem?_eq_getElem (by omega)] at this
          simpa using this
      rcases hf' : h.precedence.findIdx? (fun q => q == c) with _ | k
      · have hm := key.1 hf'
        have hno : ¬ ∃ k, h.precedence[k]? = some c := fun ⟨k, e⟩ => hm (List.mem_of_getElem? e)
        simp [parseToken, hf', hn, hm]
        intro k e; exact absurd ⟨k, e⟩ hno
      · have hm := (key2 k).1 hf'
        have hin : c ∈ h.precedence := List.mem_of_getElem? hm.1
        simp only [parseToken, hf', hn, hin]
        simp
        constructor
        · rintro ⟨-, k', e, hj, rfl⟩
          have := (key2 k').2 ⟨e, hj⟩
          rw [hf'] at this; cases this; rfl
        · intro e; exact ⟨hn, k, hm.1, hm.2, e⟩
    · rcases held with _ | t
      · simp [parseToken, hn]
      · rcases origin with _ | o
        · simp [parseToken, hn]
        · simp only [parseToken, hn]
          by_cases hl : dests.length < 8
          · simp [hl, show ¬ 8 ≤ dests.length by omega]; exact fun _ => hn
          · simp [hl, show 8 ≤ dests.length by omega]; exact fun _ => hn
    · simp [parseToken]

end Sys2Proof.Machine
end

