-- ==== Sys2Proof/Laws/Store.lean ====
section
/-! SUPPORT. The laws of the store: a read after a write, the frame of a write, and the canonical form, which every
store operation keeps. -/

namespace Sys2Proof.Machine

/-! ## Bytes -/

theorem cellsRead_write_self (l : List Host.Cell) (k : Nat) (v : Byte) (lo : Nat) (h : cellsWf lo l) :
    cellsRead (cellsWrite l k v) k = v := by
  induction l generalizing lo with
  | nil => unfold cellsWrite; split <;> simp_all [cellsRead]
  | cons c rest ih =>
    obtain ⟨a, b⟩ := c
    simp only [cellsWf, Bool.and_eq_true, decide_eq_true_eq] at h
    have gone : ∀ (l : List Host.Cell) (lo : Nat), cellsWf lo l → k < lo → cellsRead l k = Config.unlistedByte := by
      intro l
      induction l with
      | nil => intros; rfl
      | cons d r ihr =>
        intro lo hw hk
        simp only [cellsWf, Bool.and_eq_true, decide_eq_true_eq] at hw
        have : d.1 ≠ k := by omega
        simp [cellsRead, this, ihr _ hw.2 (by omega)]
    unfold cellsWrite
    split
    · split
      · next hka hv =>
        have : a ≠ k := by omega
        simp [cellsRead, this, hv, gone rest _ h.2 (by omega)]
      · simp [cellsRead]
    · split
      · next h1 h2 =>
        subst h2
        split
        · next hv => simp [hv, gone rest _ h.2 (by omega)]
        · simp [cellsRead]
      · next h1 h2 =>
        have : a ≠ k := fun e => h2 e.symm
        simp [cellsRead, this, ih _ h.2]

theorem cellsRead_write_ne (l : List Host.Cell) (k j : Nat) (v : Byte) (hj : j ≠ k) :
    cellsRead (cellsWrite l k v) j = cellsRead l j := by
  induction l with
  | nil =>
    have : k ≠ j := Ne.symm hj
    unfold cellsWrite; split <;> simp [cellsRead, this]
  | cons c rest ih =>
    obtain ⟨a, b⟩ := c
    have : k ≠ j := Ne.symm hj
    unfold cellsWrite
    split
    · split <;> simp [cellsRead, this]
    · split
      · next h2 =>
        subst h2
        split <;> simp [cellsRead, this]
      · simp [cellsRead, ih]

theorem cellsWf_mono {l : List Host.Cell} {lo lo' : Nat} (h : cellsWf lo l) (hl : lo' ≤ lo) : cellsWf lo' l := by
  cases l with
  | nil => rfl
  | cons c rest =>
    simp only [cellsWf, Bool.and_eq_true, decide_eq_true_eq] at h ⊢
    exact ⟨⟨by omega, h.1.2⟩, h.2⟩

theorem cellsWrite_wf (l : List Host.Cell) (k : Nat) (v : Byte) (lo : Nat) (h : cellsWf lo l) (hk : lo ≤ k) :
    cellsWf lo (cellsWrite l k v) := by
  induction l generalizing lo with
  | nil => unfold cellsWrite; split <;> simp_all [cellsWf]
  | cons c rest ih =>
    obtain ⟨a, b⟩ := c
    have h' := h
    simp only [cellsWf, Bool.and_eq_true, decide_eq_true_eq] at h
    obtain ⟨⟨h1, h2⟩, h3⟩ := h
    unfold cellsWrite
    split
    · next hka =>
      split
      · exact h'
      · simp_all [cellsWf]
    · split
      · next hka hke =>
        subst hke
        split
        · exact cellsWf_mono h3 (by omega)
        · simp_all [cellsWf]
      · next hka hke =>
        have := ih (a + 1) h3 (by omega)
        simp_all [cellsWf]

/-! ## Words -/

theorem Memory.empty_wf : Memory.empty.wf = true := rfl

theorem Memory.write_wf (m : Memory) (a : Addr) (w : WriteData) (h : m.wf) : (m.write a w).wf := by
  unfold Memory.wf Memory.write at *
  have h1 : cellsWf 0 (if w.be.lo then cellsWrite m.cells (2 * a.toNat) (w.data.extractLsb' 0 8) else m.cells) := by
    split
    · exact cellsWrite_wf _ _ _ _ h (Nat.zero_le _)
    · exact h
  dsimp only
  split
  · exact cellsWrite_wf _ _ _ _ h1 (Nat.zero_le _)
  · exact h1

theorem Memory.serve_wf (m : Memory) (a : Addr) (w : Option WriteData) (h : m.wf) : (m.serve a w).wf := by
  cases w with
  | none => exact h
  | some w => exact m.write_wf a w h

/-- A byte at any other byte address keeps its value. -/
theorem Memory.write_frame (m : Memory) (a b : Addr) (w : WriteData) (h : b ≠ a) :
    (m.write a w).readWord b = m.readWord b := by
  have hn : b.toNat ≠ a.toNat := fun e => h (BitVec.eq_of_toNat_eq e)
  unfold Memory.readWord Memory.readHigh Memory.readLow Memory.write
  dsimp only
  split <;> split <;> simp (disch := omega) only [cellsRead_write_ne]

/-- The enabled low byte is written; a low byte that is not enabled is kept (R189). -/
theorem Memory.write_low (m : Memory) (a : Addr) (w : WriteData) (h : m.wf) :
    (m.write a w).readLow a = if w.be.lo then w.data.extractLsb' 0 8 else m.readLow a := by
  unfold Memory.wf at h
  unfold Memory.readLow Memory.write
  dsimp only
  split <;> split <;> simp (disch := omega) only [cellsRead_write_ne, cellsRead_write_self _ _ _ 0 h]

/-- The enabled high byte is written; a high byte that is not enabled is kept (R189). -/
theorem Memory.write_high (m : Memory) (a : Addr) (w : WriteData) (h : m.wf) :
    (m.write a w).readHigh a = if w.be.hi then w.data.extractLsb' 8 8 else m.readHigh a := by
  unfold Memory.wf at h
  have h1 : cellsWf 0 (if w.be.lo then cellsWrite m.cells (2 * a.toNat) (w.data.extractLsb' 0 8) else m.cells) := by
    split
    · exact cellsWrite_wf _ _ _ _ h (Nat.zero_le _)
    · exact h
  unfold Memory.readHigh Memory.write
  dsimp only
  split
  · exact cellsRead_write_self _ _ _ 0 h1
  · split
    · exact cellsRead_write_ne _ _ _ _ (by omega)
    · rfl

/-- A word is its two bytes, the low byte in bits 0-7 (spec/00). -/
theorem word_bytes (v : Word) : v.extractLsb' 8 8 ++ v.extractLsb' 0 8 = v := by
  apply BitVec.eq_of_getLsbD_eq
  intro i hi
  rw [BitVec.getLsbD_append]
  by_cases h8 : i < 8
  · simp [h8]
  · have : 8 + (i - 8) = i := by omega
    simp [h8, this]; omega

/-- A word write stores the word. -/
theorem Memory.write_word (m : Memory) (a : Addr) (v : Word) (h : m.wf) :
    (m.write a ⟨v, .both⟩).readWord a = v := by
  unfold Memory.readWord
  rw [Memory.write_low m a _ h, Memory.write_high m a _ h]
  exact word_bytes v

end Sys2Proof.Machine
end

