-- ==== Sys2Proof/WellFormed.lean ====
section
/-! DEFINITION. Well-formed commands. Lines, stations, addresses and codes are well formed by their types; one
event has a relation among its operands that the spec fixes. -/

namespace Sys2Proof

/-- Stop vote and last sample of a completed character (R48, R49): the framing indication is the majority of
samples 51, 52 and 53. If it disagrees with the level of sample 53 (framing set with a last mark, or clear with a
last space), the three samples were not all of one level, so noise must be set. -/
def Instr.stopVoteConsistent (noise framing lastMark : Bool) : Bool :=
  noise || (framing != lastMark)

/-- A command the part's own sampler and buses can produce. -/
def Instr.wellFormed : Instr → Bool
  | .characterCompletion _ _ noise framing lastMark => Instr.stopVoteConsistent noise framing lastMark
  | _ => true

end Sys2Proof
end

