-- ==== Sys2Proof/Tests/Slice0.lean ====
section
/-! SUPPORT. Tests: ill-formed commands, small steps whose results are read from the spec's tables and examples, and for
each statement a state that meets its hypotheses. -/

namespace Sys2Proof.Machine.Tests

set_option Elab.async false

/-! ## States -/

/-- The setup of the tests: 16 blocks from word 0, a ring of 16 records from word 4096. -/
def setup : HeldSetup :=
  { poolBase := 0, poolBlocks := 16, ringBase := 64, ringCode := 0, ltrs := 31, figs := 27, space := 4, cr := 8, lf := 2,
    substitute := 13, som := [1, 3, 1, 3], eom := [5, 5, 5, 5], repeatNotice := [6, 6, 6, 6],
    precedence := [9, 10, 11, 12], answerTimeout := 20, guardTime := 3, ageing := 60, retry := 30, idleTimeout := 40 }

/-- A running office with every block free and the control page at word 65536. -/
def up : State :=
  { State.reset with
    path := { State.reset.path with straps := 4 }
    office := { State.reset.office with state := .running, setupLock := true, held := setup, clock := 1000 }
    pool := { map := List.replicate 16 .free, free := List.range 16, starved := [] } }

/-- The store cycle of a request is in progress. -/
def serving (r : Req) (s : State) : State := { s with port := { s.port with cycle := some (.internal r) } }

/-- Block 3 is in another state. -/
def block3 (b : BlockState) (s : State) : State := { s with pool := { s.pool with map := s.pool.map.set 3 b } }

/-- A walk in progress from block 3, with its request kind and count. -/
def walkOf (kind : WalkKind) (count reason : Nat) (transit : Option TransitNo) : Walk :=
  { req := { kind := kind, first := 3, count := count, origin := 5, reason := reason, transit := transit },
    block := 3, acted := 0, marked := [3], words := [], serial := 0, todo := [] }

/-- The office with that walk in progress. -/
def walking (w : Walk) (s : State) : State := { s with walker := { s.walker with walk := some w } }

/-- A line that is enabled, hunting and idle. -/
def idleLine (type : LineType) : LineUnit :=
  { LineUnit.reset with
    active := { Settings.reset with type := type }
    sampler := { Sampler.reset with state := .waitStart }
    rx := { Receiver.reset with state := .hunting }
    tx := { Transmitter.reset with state := .idle } }

/-- Line 2 is an idle line, changed by `f`. -/
def line2 (type : LineType) (f : LineUnit → LineUnit) (s : State) : State := updLine 2 (fun _ => f (idleLine type)) s

/-- The transmitter of line 2. -/
def tx2 (type : LineType) (f : Transmitter → Transmitter) : State → State :=
  line2 type (fun l => { l with tx := f l.tx })

/-- The receiver of line 2. -/
def rx2 (f : Receiver → Receiver) : State → State := line2 .pointToPoint (fun l => { l with rx := f l.rx })

/-- Delivery 7 of transit 1 on line 2. -/
def delivery (st : DeliveryState) : Delivery :=
  { state := st, transit := 1, line := 2, cls := 2, queuedTime := 900, attempts := 0, repeatFlag := false,
    retryTime := 1001, cancelPending := false, callSet := [⟨4, 37, true, false⟩] }

/-- Transit entry 1 is LIVE with two deliveries, and delivery 7 is in the state given. -/
def with7 (st : DeliveryState) (s : State) : State :=
  updTransit 1 (fun _ => { state := .live, first := 3, blockCount := 1, origin := 5, autoRelease := true, outstanding := 2 })
    (updEntry 7 (fun _ => delivery st) s)

/-- Delivery 7 is ACTIVE on line 2. -/
def active7 (s : State) : State := setActive 2 (some 7) (with7 .active s)

/-- Delivery 7 in hand. -/
def hand7 : Hand := { number := 7, first := 3, callSet := [⟨4, 37, true, false⟩], repeatFlag := false }

/-- A receiver in TEXT with one block and 20 characters. -/
def textRx (r : Receiver) : Receiver :=
  { r with state := .text, asm := { Assembly.reset with
      first := some 3, current := some 3, blockCount := 1, storedLength := 20, stage := .done } }

/-- A FIFO entry. -/
def entry (c : Code) : FifoEntry := { code := c, noise := false, gapBefore := false }

/-- Reset is asserted with this access held. -/
def inReset (a : Option Access) : State := { up with resetIn := true, path := { up.path with held := a } }

/-- The office is in another state. -/
def officeIn (st : OfficeState) : State := { up with office := { up.office with state := st } }

/-- The fourteen setup words of `setup`: the first thirteen are kept, the last stands in the store at word 65549. -/
def setupWords : List Word :=
  [0, 16, 64, 0, 31 + 27 * 32 + 4 * 1024, 8 + 2 * 32 + 13 * 1024, 1 + 3 * 32 + 1 * 1024, 3 + 5 * 32 + 5 * 1024,
   5 + 5 * 32 + 6 * 1024, 6 + 6 * 32 + 6 * 1024, 9 + 10 * 32 + 11 * 1024, 12 + 20 * 32 + 3 * 2048, 60 + 30 * 256]

/-- The last setup read is in its store cycle. -/
def lastSetupRead (words : List Word) : State :=
  serving (readReq 65549 .office .setupRead)
    { officeIn .setupRead with
      store := Memory.empty.write 65549 ⟨40, .both⟩
      office := { up.office with state := .setupRead, setupWords := words, held := HeldSetup.reset } }

/-- A store in which block 3's link word (word 96) holds `v`. -/
def linked (v : Word) (s : State) : State := { s with store := s.store.write 96 ⟨v, .both⟩ }

/-- A line with a frame in progress and a delivery in hand. -/
def sendingTx (t : Transmitter) : Transmitter :=
  { t with state := .sending, hand := some hand7, textBegun := true, sending := some ⟨.frame 3 .oneAndHalf, 40⟩ }

/-- A line that waits for an answer. -/
def answerTx (t : Transmitter) : Transmitter :=
  { t with state := .answerWait, hand := some hand7, callPos := some 1, answerCount := some 5 }

/-- The store cycle of a processor access is in progress. -/
def forwarding (a : Access) (s : State) : State := { s with port := { s.port with cycle := some (.forwarded a) } }

/-- An issuer waits while the bus is taken. -/
def waits (i : Issuer) (s : State) : State :=
  { forwarding ⟨5, none⟩ s with port := { (forwarding ⟨5, none⟩ s).port with waiting := [i] } }

/-- No block is free. -/
def noFree (s : State) : State := { s with pool := { s.pool with free := [] } }

/-- Block 5 is in another state. -/
def block5 (b : BlockState) (s : State) : State := { s with pool := { s.pool with map := s.pool.map.set 5 b } }

/-- A link read of a walk is in its store cycle and finds `v`. -/
def readsLink (p : Purpose) (v : Word) (w : Walk) (s : State) : State :=
  walking w (serving (readReq 96 .walker p) (linked v { s with post := [3] }))

/-- Head words 1 to 13 of a post with this word 3, this word 6 and this word 7, in place of a head. -/
def postHead (w3 w6 w7 : Word) : List Word := [20, 0, w3, 0, 0, w6, w7, 0, 0, 0, 0, 0, 0]

/-- A posting walk from block 3. -/
def postWalk (words : List Word) : Walk := { walkOf .posting 0 0 none with words := words }

/-- A head read of a posting walk. -/
def readsHead (words : List Word) : State := readsLink .postHeadRead 7 (postWalk words) (block3 .owned up)

/-- The last head write of a posting walk. -/
def writesHead : State :=
  walking (postWalk (postHead 2 1 37 ++ [0]))
    (serving (wordReq 111 1000 .walker (.postHeadWrite true)) { block3 .owned up with post := [3] })

/-- A read of the transmitter of line 2 that finds `v` at word 97. -/
def readsText (p : Purpose) (v : Word) (f : Transmitter → Transmitter) : State :=
  serving (readReq 97 (.transmitter 2) p) (tx2 .pointToPoint (fun t => f { sendingTx t with live := 1 })
    { active7 up with store := Memory.empty.write 97 ⟨v, .both⟩ })

/-- The office with the hold latch set. -/
def latched (s : State) : State := { s with office := { s.office with holdLatch := true } }

/-- A station entry in service on a line. -/
def station (code : BitVec 10) (line : BitVec 5) : Station := ⟨true, code, line, none, false, .inService, 0⟩

/-- The stations of Table 5-5. -/
def stations : Vector Station 64 :=
  up.router.active.set 0 (station 769 3) |>.set 1 ⟨true, 323, 6, some 200, true, .inService, 0⟩
    |>.set 2 ⟨true, 410, 6, some 96, true, .diverted, 5⟩ |>.set 4 ⟨true, 550, 9, none, false, .outOfService, 0⟩
    |>.set 5 ⟨true, 612, 6, some 88, false, .inService, 0⟩ |>.set 7 (station 655 11)

/-- The office with those stations active, and line 6 a party line. -/
def routed : State :=
  { up with router := { up.router with active := stations }, lines := up.lines.set 6 (idleLine .party) }

/-- The message of the example in Chapter 5. -/
def message : MessageRecord :=
  { first := 12, blockCount := 3, cls := 2, origin := 4, originStation := 0, serial := 0, flags := MessageFlags.clear, directed := false,
    dests := [769, 323, 410, 550, 323], autoRelease := true }

/-- What exec answers, for the tests. -/
def after (c : Instr) (s : State) : State :=
  match exec c s with
  | .next t => t
  | _ => s

/-! ## Well-formed commands -/

theorem test_wellFormed_refuses :
    (Instr.characterCompletion 3 5 false true true).wellFormed = false ∧
    (Instr.characterCompletion 3 5 false false false).wellFormed = false := by decide +kernel

theorem test_wellFormed_accepts :
    (Instr.characterCompletion 3 5 true true true).wellFormed = true ∧
    (Instr.characterCompletion 3 5 false true false).wellFormed = true ∧
    (Instr.characterCompletion 3 5 false false true).wellFormed = true := by decide +kernel

/-! ## Small steps, with the results of the spec's tables -/

/-- Table 1-9: the first load is refused with reason 4, the second passes. -/
theorem test_setup_checks :
    setupRefusal 147456 { setup with poolBase := 4608, poolBlocks := 2048, ringBase := 2048, ringCode := 6 } = 4 ∧
    setupRefusal 147456 { setup with poolBase := 2048, poolBlocks := 2048, ringBase := 2048, ringCode := 6 } = 0 := by decide +kernel

/-- Tables 12-2 and 1-8: the setup words give the held values. -/
theorem test_setup_words : parseSetup (setupWords ++ [40]) = setup := by decide +kernel

/-- Table 2-3: return word 9 gives the block to the head of the starved list. -/
theorem test_return_starved :
    let s := after (.returnWord 3 .both) (rx2 textRx (block3 .held { up with pool := { up.pool with free := [], starved := [2, 11] } }))
    s.pool.starved = [11] ∧ s.pool.free = [] ∧ blockState s 3 = some .owned := by decide +kernel

/-- Table 3-4: code 25 with noise joins the FIFO. -/
theorem test_character :
    ((after (.characterCompletion 2 25 true false true) (rx2 id up)).lines[2].rx.fifo,
      (after (.characterCompletion 2 25 true false true) (rx2 id up)).lines[2].sampler.state) =
      ([⟨25, true, false⟩], .waitStart) := by decide +kernel

/-- Table 3-7: clock set high 3, clock set low 500. -/
theorem test_clock_set :
    let s := after (.clockSetHigh 3 .both) { up with office := { up.office with clock := 70000 } }
    s.office.captured = some 3 ∧ s.office.clock = 70000 := by decide +kernel

/-- R59: a set taken before the advance of its own cycle; the clock holds the set value. -/
theorem test_clock_set_meets_advance :
    let s := after (.clockSetLow 500 .both) { up with office := { up.office with divider := 2457600 } }
    (after .clockAdvance s).office.clock = 500 ∧ (after .clockAdvance s).office.advanceVoid = false := by decide +kernel

/-- R102: a plan of two takes the lowest FREE entries in order, here 0 and 1. -/
theorem test_routing_entries :
    let s := routeMessage message routed
    (s.du.entries[(0 : DeliveryNo)].line, s.du.entries[(1 : DeliveryNo)].line) = (3, 6) ∧
    s.du.queues[(3 : LineNo)] = [0] ∧ s.du.queues[(6 : LineNo)] = [1] := by decide +kernel

/-- Table 4-4: the precedence code of class 2 stands at position 4; its take gives class 2. -/
theorem test_header_precedence :
    let a : Assembly := { Assembly.reset with first := some 3, current := some 3, blockCount := 1, storedLength := 4 }
    let s := after (.receiverTake 2) (rx2 (fun r => { r with state := .header, fifo := [entry 11], asm := a }) up)
    s.lines[2].rx.asm.cls = 2 ∧ s.lines[2].rx.asm.headerCount = 1 ∧ s.lines[2].rx.asm.storedLength = 5 := by decide +kernel

/-- Tables 5-6 and 5-7: one delivery on line 3 and one on line 6 with the call set 200, 88. -/
theorem test_routing_plan :
    (deliveryPlan routed message).map (fun p => (p.line.val, p.callSet.map (fun m => (m.station.val, m.callCode.toNat, m.confirm)))) =
      [(3, []), (6, [(1, 200, true), (5, 88, false)])] := by decide +kernel

/-- The refused commit of Chapter 5: entry 7, diverted to 12, fails check 5. -/
theorem test_commit_refused :
    commitFailure (stations.set 7 ⟨true, 655, 11, none, false, .diverted, 12⟩ |>.set 9 (station 612 6)) =
      some (7, 5) := by decide +kernel

/-- Tables 6-5 and 6-6: effective classes with A = 120. -/
theorem test_effective_class :
    let s := { up with office := { up.office with clock := 10000, held := { setup with ageing := 120 } } }
    let e := fun c q => effectiveClass s { delivery .queued with cls := c, queuedTime := q }
    (e 3 9700, e 2 9900, e 2 9500, e 1 9990) = (1, 2, 1, 1) := by decide +kernel

/-- Chapter 12: the word of the reset settings, and 37247. -/
theorem test_settings_words :
    (after (.lineSettingsWord 5 13132 .both) up).lines[5].active = Settings.reset ∧
    (after (.lineSettingsWord 5 37247 .both) up).lines[5].active = ⟨383, true, .one, .party⟩ := by decide +kernel

/-- Chapter 12: words 0 to 3 of the MESSAGE ROUTED report of the example, and word 0 of a GUARD VIOLATION of cause 2. -/
theorem test_report_words :
    let r : Record := { plainReport .messageRouted 4 12 (2 + 1 * 256) 5000 with qualifier := 0 }
    (List.range 4).map r.word = [1025, 12, 258, 5000] ∧
    ({ plainReport .guardViolation 31 0 0 0 with qualifier := 2 } : Record).word 0 = 8013 := by decide +kernel

/-- Table 11-2: read index 120 is ignored, 116 is accepted. -/
theorem test_read_index :
    let s := { up with report := { up.report with read := 100, write := 116, fill := 116, overflow := true, tally := 1 } }
    ((after (.reportReadIndex 120 .both) s).report.badRead, (after (.reportReadIndex 120 .both) s).report.read) = (true, 100) ∧
    ((after (.reportReadIndex 116 .both) s).report.overflow, (after (.reportReadIndex 116 .both) s).report.read) = (false, 116) := by
  decide +kernel

/-- Table 1-5: with both kinds waiting the processor's turn comes after an internal cycle. -/
theorem test_arbiter :
    let s := { up with port := { up.port with queue := [readReq 44 (.transmitter 5) .txText], fwd := some ⟨44, none⟩ } }
    (startCycle s).port.cycle = some (.forwarded ⟨44, none⟩) ∧
    (startCycle { s with port := { s.port with lastServed := .processor } }).port.fwd = some ⟨44, none⟩ := by decide +kernel

/-! ## Witnesses: states that meet the hypotheses of each statement, clause by clause -/

/-- A walk's read of word 96 is in its store cycle. -/
abbrev WalkReads (p : Purpose) (w : Walk) (s : State) : Prop :=
  s.resetIn = false ∧ s.report.offers = [] ∧ s.walker.walk = some w ∧ Serving (readReq 96 .walker p) s

/-- Line 2 is on, in a quiet state, with no settings pending. -/
abbrev LineOn (s : State) : Prop :=
  Quiet s ∧ s.lines[(2 : LineNo)].tx.state ≠ .off ∧ s.lines[(2 : LineNo)].settingsPending = false

/-- The receiver of line 2 may take. -/
abbrev Takes (s : State) : Prop :=
  Quiet s ∧ (2 : LineNo) ∉ s.pool.starved ∧ s.lines[(2 : LineNo)].rx.asm.awaiting = [] ∧
    s.lines[(2 : LineNo)].rx.unplaced = none ∧ s.lines[(2 : LineNo)].rx.window.length ≤ 4 ∧
    (s.lines[(2 : LineNo)].rx.fifo.head?.map (·.gapBefore)) = some false

/-- A running office into which the processor can write. -/
abbrev Commands (s : State) : Prop := Accessible s ∧ running s = true

/-- The transmitter of line 2 is free and on. -/
abbrev FreeTx (s : State) : Prop := LineOn s ∧ s.lines[(2 : LineNo)].tx.sending = none

/-- The transmitter of line 2 is sending. -/
abbrev Sends (g : Sending) (s : State) : Prop := LineOn s ∧ s.lines[(2 : LineNo)].tx.sending = some g

/-- The transmitter of line 2 sends delivery 7. -/
abbrev SendsHand (s : State) : Prop :=
  Sends ⟨.frame 3 .oneAndHalf, 40⟩ s ∧ s.lines[(2 : LineNo)].tx.hand = some hand7 ∧ s.lines[(2 : LineNo)].tx.stopping = false ∧
    s.lines[(2 : LineNo)].tx.owed = none ∧ s.du.active[(2 : LineNo)] = some hand7.number ∧ s.du.entries[hand7.number].line = 2

/-- A read of the transmitter of line 2 is in its store cycle and its data are wanted. -/
abbrev WantsRead (p : Purpose) (s : State) : Prop :=
  Quiet s ∧ Serving (readReq 97 (.transmitter 2) p) s ∧ s.lines[(2 : LineNo)].tx.stale = 0 ∧
    s.lines[(2 : LineNo)].tx.sending ≠ none

theorem witness_StepRunsFrontCommand : { up with pending := [.claim, .clockAdvance] }.pending = [.claim, .clockAdvance] := rfl

theorem witness_StepKeepsSound : Sound up ∧ ∃ t, step up = .next t :=
  ⟨by constructor <;> decide +kernel, _, rfl⟩

theorem witness_StoreChangesOnlyByCycle :
    ∃ t, exec .internalWriteCompletion (serving (wordReq 4 4 .walker .freeLink) up) = .next t ∧
      t.store = up.store.write 4 ⟨4, .both⟩ := ⟨_, rfl, by decide +kernel⟩

theorem witness_ConfigurationKept :
    (∃ t, exec .setupReadCompletion (lastSetupRead setupWords) = .next t) ∧
    (∃ t, exec (.resetDeasserted 5 true) (inReset none) = .next t) ∧ ∃ t, exec (.commitStations .both) routed = .next t :=
  ⟨⟨_, rfl⟩, ⟨_, rfl⟩, _, rfl⟩

theorem witness_ResetAsserted : up.resetIn = false := rfl

theorem witness_ResetDeassertion :
    ((inReset none).resetIn = true ∧ (inReset none).path.held = none) ∧
    ((inReset (some ⟨5 * 16384 + 32, none⟩)).resetIn = true ∧
      (inReset (some ⟨5 * 16384 + 32, none⟩)).path.held = some ⟨5 * 16384 + 32, none⟩) ∧
    (inReset (some ⟨7, none⟩)).path.held = some ⟨7, none⟩ := by decide +kernel

theorem witness_ProcessorWrite :
    (Accessible up ∧ pageOffset up 512 = none ∧ poolBlock up 512 = none) ∧
    ((inReset none).resetIn = true ∧ pwait (inReset none) = false) := by decide +kernel

theorem witness_SnoopNotTaken :
    (Accessible up ∧ pageCommand (.postWord 3 ⟨true, false⟩) = some (18, 3, ⟨true, false⟩)) ∧
    (Accessible (officeIn .poolBuild) ∧ pageCommand (.lineReset 23 .both) = some (151, 3, .both) ∧
      (officeIn .poolBuild).office.state ≠ .running) ∧
    (⟨false, true⟩ : ByteEnables) ≠ .both ∧ ((128 ≤ 151 ∧ 151 ≤ 151) ∧ (0 : Word) ≠ 1 ∧ (0 : Word) ≠ 2 ∧ (0 : Word) ≠ 3) := by
  decide +kernel

theorem witness_ForwardedCompletion :
    (Quiet (forwarding ⟨5, some ⟨3, .both⟩⟩ up) ∧
      (forwarding ⟨5, some ⟨3, .both⟩⟩ up).port.cycle = some (.forwarded ⟨5, some ⟨3, .both⟩⟩)) ∧
    (Quiet (forwarding ⟨5, none⟩ up) ∧ (forwarding ⟨5, none⟩ up).path.held = none ∧
      (forwarding ⟨5, none⟩ up).port.fwd = none) := by decide +kernel

theorem witness_RequestPlacement :
    (let s := waits (.receiver 2) (rx2 (fun r => { r with unplaced := some (wordReq 4 4 (.receiver 2) .rxLink) }) up)
     s.resetIn = false ∧ s.port.cycle ≠ none ∧ s.port.waiting = [.receiver 2] ∧ s.port.queue.length < Config.queuePlaces ∧
       keptRequest s (.receiver 2) = some (wordReq 4 4 (.receiver 2) .rxLink)) ∧
    (let s := waits .office (officeIn .setupRead)
     s.port.waiting = [.office] ∧ (keptRequest s .office).isSome = true) := by decide +kernel

/-- Two issuers wait while the bus is taken. -/
def waitTwo (i j : Issuer) (s : State) : State := { waits i s with port := { (waits i s).port with waiting := [i, j] } }

theorem witness_RequestPlacement_rejoins :
    (let r := byteReq 9 true 3 (.receiver 2) (.rxClose false)
     let s := waitTwo (.receiver 2) .report
       (rx2 (fun x => { textRx x with state := .closing, closeNext := 4, unplaced := some r }) up)
     Quiet s ∧ s.port.waiting = .receiver 2 :: [.report] ∧ Issuer.receiver 2 ∉ [Issuer.report] ∧
       keptRequest s (.receiver 2) = some r ∧ s.lines[(2 : LineNo)].rx.asm.awaiting = [] ∧ r.purpose ≠ .rxClose true) ∧
    (let r := readReq 5 (.transmitter 2) .txText
     let s := waits (.transmitter 2) (tx2 .party (fun t => { t with out := [r, r] }) up)
     Quiet s ∧ s.port.waiting = .transmitter 2 :: [] ∧ keptRequest s (.transmitter 2) = some r) ∧
    (let s := waitTwo .delivery .report (walking (walkOf .release 1 0 none)
       { up with du := { up.du with rewrites := [⟨102, 1, [plainReport .deliveryDone 2 7 1 1000], none⟩] } })
     s.port.waiting = .delivery :: [.report] ∧ Issuer.delivery ∉ [Issuer.report] ∧ s.walker.walk ≠ none ∧
       (keptRequest s .delivery).isSome = true) := by
  refine ⟨?_, ?_, ?_⟩ <;> decide +kernel

theorem witness_ArbiterTurns :
    ((forwarding ⟨5, none⟩ up).port.cycle ≠ none) ∧ (up.port.cycle = none ∧ up.port.fwd = none ∧ up.port.queue = []) ∧
    (let s := { up with port := { up.port with queue := [wordReq 4 4 .walker .freeLink], fwd := some ⟨5, none⟩ } }
     s.port.fwd = some ⟨5, none⟩ ∧ s.port.lastServed = .internal) ∧
    (let s := { up with port := { up.port with queue := [wordReq 4 4 .walker .freeLink], lastServed := .processor } }
     s.port.queue = [wordReq 4 4 .walker .freeLink] ∧ s.port.lastServed = .processor) ∧
    ∃ t, exec .claim up = .next t ∧ t.resetIn = false :=
  ⟨by decide +kernel, by decide +kernel, by decide +kernel, by decide +kernel, _, rfl, by decide +kernel⟩

theorem witness_InternalWriteCompletion :
    (let r := byteReq 9 true 3 (.receiver 2) .rxByte
     Serving r (serving r up) ∧ plainWrite r.purpose = true ∧ r.write.isSome = true ∧ Quiet (serving r up) ∧
       (serving r up).lines[(2 : LineNo)].rx.abandon = []) ∧
    (let r := byteReq 9 true 3 (.receiver 2) .rxByte
     let s := walking (walkOf .release 2 0 none) (serving r (rx2 (fun x => { x with abandon := [⟨3, 2, 1⟩] }) up))
     Serving r s ∧ s.resetIn = false ∧ s.report.offers = [] ∧ s.walker.walk ≠ none ∧ s.lines[(2 : LineNo)].rx.abandon = [⟨3, 2, 0 + 1⟩]) := by
  decide +kernel

theorem witness_StartWord :
    (Accessible (officeIn .dormant) ∧ (officeIn .dormant).office.state = .dormant ∧ Room 14 (officeIn .dormant)) ∧
    (Accessible (officeIn .setupRead) ∧ Accessible (officeIn .poolBuild) ∧ Accessible up ∧ up.office.state = .running) ∧
    (running (inReset none) = true ∧ ∃ t, exec (.resetDeasserted 5 true) (inReset none) = .next t ∧
      t.office.held ≠ (inReset none).office.held) :=
  ⟨by decide +kernel, by decide +kernel, by decide +kernel, _, rfl, by decide +kernel⟩

theorem witness_SetupLoad :
    (let s := lastSetupRead (setupWords.take 12)
     Quiet s ∧ s.office.state = .setupRead ∧ Serving (readReq 65549 .office .setupRead) s ∧
       (s.office.setupWords ++ [s.store.readWord 65549]).length < 14) ∧
    (let s := lastSetupRead (setupWords.set 1 15)
     (s.office.setupWords ++ [s.store.readWord 65549]).length = 14 ∧
       setupRefusal (pageBase s).toNat (parseSetup (s.office.setupWords ++ [s.store.readWord 65549])) = 0 + 1) ∧
    (let s := lastSetupRead setupWords
     (s.office.setupWords ++ [s.store.readWord 65549]).length = 14 ∧ s.walker.links = [] ∧ s.port.queue = [] ∧
       s.port.waiting = [] ∧ s.port.fwd = none ∧
       setupRefusal (pageBase s).toNat (parseSetup (s.office.setupWords ++ [s.store.readWord 65549])) = 0) ∧
    (let s := serving (wordReq 480 65535 .walker (.poolLink true)) (officeIn .poolBuild)
     s.resetIn = false ∧ s.report.offers = [] ∧ s.walker.queue = [] ∧ s.office.state = .poolBuild ∧
       Serving (wordReq 480 65535 .walker (.poolLink true)) s) := by decide +kernel

theorem witness_SetupChecks :
    setupRefusal 65536 setup = 0 ∧ setupRefusal 65536 { setup with poolBlocks := 15 } = 0 + 1 ∧
    setupRefusal 65536 { setup with idleTimeout := 7 } = 7 + 1 := by decide +kernel

theorem witness_ClaimWord :
    (Accessible up ∧ running up = true ∧ up.pool.free = 0 :: up.pool.free.tail) ∧
    (Accessible (noFree up) ∧ (noFree up).pool.free = []) ∧
    (Accessible (officeIn .poolBuild) ∧ running (officeIn .poolBuild) = false) := by decide +kernel

theorem witness_ReturnWord :
    (let s := block3 .held up
     Accessible s ∧ running s = true ∧ blockState s 3 = some .held ∧ s.pool.starved = [] ∧ s.pool.free.getLast? = some 15 ∧
       s.walker.links = [] ∧ s.walker.walk = none ∧ Room 1 s) ∧
    (let s := block3 .held (waits .walker up)
     s.pool.free.getLast? = some 15 ∧ Issuer.walker ∈ s.port.waiting) ∧
    (noFree (block3 .held up)).pool.free = [] ∧
    (let s := rx2 textRx (block3 .held { up with pool := { up.pool with free := [], starved := [2, 5] } })
     Accessible s ∧ s.pool.starved = [2, 5] ∧ (2 : LineNo) ∉ [(5 : LineNo)] ∧
       s.lines[(2 : LineNo)].rx.asm.awaiting = [] ∧ s.lines[(2 : LineNo)].rx.asm.current = some 3 ∧
       s.lines[(2 : LineNo)].rx.unplaced = none ∧ s.lines[(2 : LineNo)].rx.state = .text ∧ Room 1 s) ∧
    (blockState up 15 = some .free ∧ blockState (block3 .owned up) 3 = some .owned ∧ blockState up 16 = none) := by
  decide +kernel

theorem witness_PoolWriteVerdict :
    (Accessible (block3 .held up) ∧ running (block3 .held up) = true ∧ pageOffset (block3 .held up) 127 = none ∧
      up.office.held.poolBase * 32 ≤ 127 ∧ 127 < up.office.held.poolBase * 32 + up.office.held.poolBlocks * 32 ∧
      3 = (127 - up.office.held.poolBase * 32) / 32 ∧ blockState (block3 .held up) 3 = some .held) ∧
    (Accessible up ∧ pageOffset up 511 = none ∧ 511 < up.office.held.poolBase * 32 + up.office.held.poolBlocks * 32 ∧
      15 = (511 - up.office.held.poolBase * 32) / 32 ∧ blockState up 15 = some .free) ∧
    (Accessible (block3 .owned up) ∧ blockState (block3 .owned up) 3 = some .owned) ∧
    (Accessible (officeIn .poolBuild) ∧ pageOffset (officeIn .poolBuild) 0 = none ∧
      (officeIn .poolBuild).office.held.poolBase * 32 ≤ 0 ∧ 0 = (0 - (officeIn .poolBuild).office.held.poolBase * 32) / 32) := by
  decide +kernel

theorem witness_CountedWalks :
    (let w := walkOf .handOver 4 2 none
     let s := readsLink .walkLink 5 w (block5 .owned (block3 .owned up))
     s.resetIn = false ∧ s.report.offers = [] ∧ s.walker.walk = some w ∧ Serving (readReq 96 .walker .walkLink) s ∧ w.todo = [] ∧
       s.store.readWord 96 = 5 ∧ 5 < s.office.held.poolBlocks ∧ 5 ≠ w.block ∧ blockState s 5 = some .owned ∧
       w.acted + 2 < w.req.count ∧ s.walker.links = [] ∧ Room 1 s) ∧
    (let w := walkOf .release 4 0 (some 1)
     let s := readsLink .walkLink 16 w (noFree up)
     WalkReads .walkLink w s ∧ w.req.kind = .release ∧ w.req.transit = some 1 ∧ s.store.readWord 96 = 16 ∧ s.office.held.poolBlocks ≤ 16 ∧ s.pool.starved = [] ∧
       s.pool.free = [] ∧ s.walker.queue = []) ∧
    (let w := walkOf .handOver 1 2 none
     let s := walking w (serving (byteReq 98 true 2 .walker .handOverHead) up)
     s.resetIn = false ∧ s.report.offers = [] ∧ s.walker.walk = some w ∧ Serving (byteReq 98 true 2 .walker .handOverHead) s ∧ w.req.count ≤ 1 ∧
       w.req.kind = .handOver ∧ w.req.reason ≠ 0 ∧ s.walker.queue = []) ∧
    (let w := walkOf .handOver 2 2 none
     let s := walking w (serving (byteReq 98 true 2 .walker .handOverHead) up)
     s.resetIn = false ∧ s.report.offers = [] ∧ s.walker.walk = some w ∧ Serving (byteReq 98 true 2 .walker .handOverHead) s ∧ 1 < w.req.count) := by
  decide +kernel

/-- A counted walk whose link read finds block 5, OWNED, the last of two, with one more record to fit in the ring. -/
abbrev LastOfTwo (w : Walk) (s : State) : Prop :=
  WalkReads .walkLink w s ∧ s.store.readWord 96 = 5 ∧ 5 < s.office.held.poolBlocks ∧ 5 ≠ w.block ∧
    blockState s 5 = some .owned ∧ w.acted + 2 = w.req.count ∧ s.walker.queue = [] ∧ w.todo = [] ∧
    s.walker.links = [] ∧ s.pool.starved = [] ∧ s.pool.free = [] ∧ Room 5 s ∧ RingRoom 1 s

/-- The ring has place for one more record. -/
def ring15 (s : State) : State := { s with report := { s.report with fill := 15, write := 15 } }

/-- Blocks 3 and 5 are OWNED and no block is free. -/
def twoOwned : State := ring15 (noFree (block5 .owned (block3 .owned up)))

theorem witness_CountedWalks_ends :
    (let w := walkOf .abandon 4 0 none
     let s := readsLink .walkLink 16 w (noFree up)
     WalkReads .walkLink w s ∧ w.req.kind = .abandon ∧ s.store.readWord 96 = 16 ∧ s.office.held.poolBlocks ≤ 16 ∧
       s.pool.starved = [] ∧ s.pool.free = [] ∧ s.walker.queue = []) ∧
    (let w := walkOf .handOver 2 1 none
     LastOfTwo w (readsLink .walkLink 5 w twoOwned) ∧ w.req.kind = .handOver ∧ w.req.reason ≠ 0) ∧
    (let w := walkOf .handOver 2 0 (some 1)
     LastOfTwo w (readsLink .walkLink 5 w twoOwned) ∧ w.req.kind = .handOver ∧ w.req.reason = 0 ∧
       w.req.transit = some 1) ∧
    (let w := walkOf .abandon 2 0 none
     LastOfTwo w (readsLink .walkLink 5 w twoOwned) ∧ w.req.kind = .abandon) ∧
    (let w := walkOf .release 2 0 (some 1)
     LastOfTwo w (readsLink .walkLink 5 w twoOwned) ∧ w.req.kind = .release ∧ w.req.transit = some 1) ∧
    (let w := walkOf .handOver 1 0 (some 1)
     let s := walking w (serving (byteReq 98 true 2 .walker .handOverHead) up)
     s.resetIn = false ∧ s.report.offers = [] ∧ s.walker.walk = some w ∧ Serving (byteReq 98 true 2 .walker .handOverHead) s ∧ w.req.count ≤ 1 ∧
       w.req.kind = .handOver ∧ w.req.reason = 0 ∧ w.req.transit = some 1 ∧ w.acted = 0 ∧ s.walker.queue = []) := by
  refine ⟨?_, ?_, ?_, ?_, ?_, ?_⟩ <;> decide +kernel

theorem witness_PostingLinkReadCompletion :
    (let s := readsLink .postLink 65535 (postWalk []) (block3 .owned up)
     WalkReads .postLink (postWalk []) s ∧ s.store.readWord 96 = 65535 ∧ s.walker.links = [] ∧ Room 14 s) ∧
    (let w := { postWalk [] with marked := List.replicate 63 3 }
     let s := readsLink .postLink 5 w (block5 .held (block3 .owned up))
     WalkReads .postLink w s ∧ s.store.readWord 96 = 5 ∧ 5 < s.office.held.poolBlocks ∧ w.marked.length < 64 ∧
       blockState s 5 = some .held ∧ s.walker.links = [] ∧ Room 1 s) ∧
    (let s := readsLink .postLink 16 (postWalk []) (block3 .owned up)
     WalkReads .postLink (postWalk []) s ∧ s.store.readWord 96 = 16 ∧ s.post = [3] ∧ s.walker.queue = [] ∧
       s.office.held.poolBlocks ≤ 16) ∧
    (let w := { postWalk [] with marked := List.replicate 64 3 }
     let s := readsLink .postLink 5 w (block3 .owned up)
     WalkReads .postLink w s ∧ s.store.readWord 96 = 5 ∧ s.post = [3] ∧ s.walker.queue = [] ∧ 5 < s.office.held.poolBlocks ∧
       64 ≤ w.marked.length) ∧
    (let w := { postWalk [] with marked := List.replicate 63 3 }
     let s := readsLink .postLink 5 w (block3 .owned up)
     WalkReads .postLink w s ∧ s.store.readWord 96 = 5 ∧ s.post = [3] ∧ s.walker.queue = [] ∧ 5 < s.office.held.poolBlocks ∧
       w.marked.length < 64 ∧ blockState s 5 ≠ some .held) := by decide +kernel

theorem witness_PostingHeadReadCompletion :
    (let words := List.replicate 12 0
     WalkReads .postHeadRead (postWalk words) (readsHead words) ∧ (words ++ [(7 : Word)]).length < 14) ∧
    (let words := postHead (3 + 16384) 8 23
     let w := postWalk (words ++ [7])
     WalkReads .postHeadRead (postWalk words) (readsHead words) ∧ (readsHead words).store.readWord 96 = 7 ∧
       14 ≤ w.words.length ∧ (w.head 3).toNat % 8 ≤ 3 ∧ w.destCount = 8 ∧ (w.head 3).getLsbD 14 = true ∧
       w.dests = [23, 0, 0, 0, 0, 0, 0, 7] ∧ (readsHead words).walker.links = [] ∧ Room 5 (readsHead words)) ∧
    (let words := postHead 4 1 37
     WalkReads .postHeadRead (postWalk words) (readsHead words) ∧ (readsHead words).post = [3] ∧
       (readsHead words).walker.queue = [] ∧ 3 < ((postWalk (words ++ [7])).head 3).toNat % 8) ∧
    (let words := postHead 3 9 37
     WalkReads .postHeadRead (postWalk words) (readsHead words) ∧ (readsHead words).post = [3] ∧
       (readsHead words).walker.queue = [] ∧ ((postWalk (words ++ [7])).head 3).toNat % 8 ≤ 3 ∧
       (postWalk (words ++ [7])).destCount = 9) ∧
    (let words := postHead (2 + 16384) 1 24
     let w := postWalk (words ++ [7])
     WalkReads .postHeadRead (postWalk words) (readsHead words) ∧ (readsHead words).post = [3] ∧
       (readsHead words).walker.queue = [] ∧ (w.head 3).toNat % 8 ≤ 3 ∧ w.destCount = 1 ∧ (w.head 3).getLsbD 14 = true ∧
       w.dests = [24]) := by
  refine ⟨?_, ?_, ?_, ?_, ?_⟩ <;> decide +kernel

theorem witness_PostingHeadWriteCompletion :
    writesHead.resetIn = false ∧ writesHead.walker.walk = some (postWalk (postHead 2 1 37 ++ [0])) ∧ writesHead.post = [3] ∧
    Serving (wordReq 111 1000 .walker (.postHeadWrite true)) writesHead := by decide +kernel

theorem witness_Posting_next :
    (let s := { readsLink .postLink 16 (postWalk []) (block3 .owned up) with post := [3, 5] }
     WalkReads .postLink (postWalk []) s ∧ s.store.readWord 96 = 16 ∧ s.post = 3 :: [5] ∧ s.office.held.poolBlocks ≤ 16) ∧
    (let s := { readsHead (postHead 4 1 37) with post := [3, 5] }
     WalkReads .postHeadRead (postWalk (postHead 4 1 37)) s ∧ s.post = 3 :: [5] ∧
       3 < ((postWalk (postHead 4 1 37 ++ [7])).head 3).toNat % 8) ∧
    (let s := { writesHead with post := [3, 5] }
     s.resetIn = false ∧ s.walker.walk = some (postWalk (postHead 2 1 37 ++ [0])) ∧ s.post = 3 :: [5] ∧
       Serving (wordReq 111 1000 .walker (.postHeadWrite true)) s) := by
  refine ⟨?_, ?_, ?_⟩ <;> decide +kernel

theorem witness_PostWord :
    (let s := { up with post := [1, 2, 3, 5] }
     Quiet s ∧ pwait s = false ∧ running s = true ∧ (5 : Word) ∈ s.post ∧ (6 : Word) ∉ s.post ∧ 4 ≤ s.post.length) ∧
    (Quiet up ∧ pwait up = false ∧ running up = true ∧ (5 : Word) ∉ up.post ∧ up.post.length < 4) ∧
    (let s := { up with post := [1, 2, 3] }
     pwait s = false ∧ running s = true ∧ (5 : Word) ∉ s.post ∧ s.post.length < 4) := by decide +kernel

theorem witness_CharacterCompletion :
    (let s := rx2 id up
     LineOn s ∧ s.lines[(2 : LineNo)].tx.state ≠ .answerWait ∧ echoes s.lines[(2 : LineNo)] = false ∧
       s.lines[(2 : LineNo)].rx.fifo.length < 8) ∧
    (let s := tx2 .party sendingTx up
     LineOn s ∧ s.lines[(2 : LineNo)].tx.state ≠ .answerWait ∧ echoes s.lines[(2 : LineNo)] = true) ∧
    (let s := rx2 (fun r => { r with fifo := List.replicate 8 (entry 3) }) up
     LineOn s ∧ s.lines[(2 : LineNo)].tx.state ≠ .answerWait ∧ echoes s.lines[(2 : LineNo)] = false ∧
       8 ≤ s.lines[(2 : LineNo)].rx.fifo.length) := by decide +kernel

theorem witness_AnswerCheck :
    let s := tx2 .party (fun t => { answerTx t with answerWindow := [7, 1] }) (active7 up)
    Quiet s ∧ s.lines[(2 : LineNo)].tx.state = .answerWait ∧ s.lines[(2 : LineNo)].settingsPending = false ∧
    s.lines[(2 : LineNo)].tx.hand = some hand7 ∧ s.lines[(2 : LineNo)].tx.callPos = some 1 ∧
    hand7.callSet[1 - 1]? = some ⟨4, 37, true, false⟩ ∧ s.lines[(2 : LineNo)].tx.answerWindow.length ≤ 2 ∧
    (31 : Code) = s.office.held.ltrs ∧ (5 : Code) ≠ s.office.held.ltrs ∧ (5 : Code) ≠ s.office.held.figs ∧
    [(1 : Code), 5] = [(37 : BitVec 10).extractLsb' 5 5, (37 : BitVec 10).extractLsb' 0 5] ∧
    hand7.callSet = [⟨4, 37, true, false⟩] ∧ s.du.entries[hand7.number].callSet = [⟨4, 37, true, false⟩] := by decide +kernel

/-- Delivery 7 calls two members. -/
def hand2 : Hand := { hand7 with callSet := [⟨4, 37, true, false⟩, ⟨5, 38, false, false⟩] }

/-- The entry of that delivery. -/
def calls2 (s : State) : State := updEntry 7 (fun e => { e with callSet := hand2.callSet }) (active7 s)

theorem witness_AnswerCheck_further :
    let s := tx2 .party (fun t => { answerTx t with answerWindow := [7, 1], hand := some hand2 }) (calls2 up)
    Quiet s ∧ s.lines[(2 : LineNo)].tx.state = .answerWait ∧ s.lines[(2 : LineNo)].tx.hand = some hand2 ∧
    s.lines[(2 : LineNo)].tx.callPos = some 1 ∧ hand2.callSet[1 - 1]? = some ⟨4, 37, true, false⟩ ∧
    hand2.callSet[1]? = some ⟨5, 38, false, false⟩ ∧
    [(1 : Code), 5] = [(37 : BitVec 10).extractLsb' 5 5, (37 : BitVec 10).extractLsb' 0 5] ∧
    s.du.entries[hand2.number].callSet = [] ++ ⟨4, 37, true, false⟩ :: [⟨5, 38, false, false⟩] := by decide +kernel

/-- R153: the answer code of the first member leads to the call of the second. -/
theorem test_answer_calls_next :
    let s := after (.characterCompletion 2 5 false false true)
      (tx2 .party (fun t => { answerTx t with answerWindow := [7, 1], hand := some hand2 }) (calls2 up))
    s.lines[2].tx.state = .calling ∧ s.lines[2].tx.callPos = some 2 ∧
    s.du.entries[(7 : DeliveryNo)].callSet.map (fun m => m.answered) = [true, false] := by decide +kernel

theorem witness_TakeHunting :
    (let s := rx2 (fun r => { r with fifo := [entry 3, entry 8], window := [1, 1, 3, 1] }) up
     Takes s ∧ s.lines[(2 : LineNo)].rx.state = .hunting ∧ ([(1 : Code), 1, 3, 1] ++ [3]).drop 1 = s.office.held.som ∧
       s.office.held.som = [1, 3, 1, 3] ∧ s.pool.free = 0 :: s.pool.free.tail ∧ s.walker.offered = none ∧ Room 4 s) ∧
    (let s := noFree (rx2 (fun r => { r with fifo := [entry 3], window := [1, 3, 1] }) up)
     Takes s ∧ s.lines[(2 : LineNo)].rx.state = .hunting ∧ [(1 : Code), 3, 1, 3] = s.office.held.som ∧ s.pool.free = []) ∧
    (let s := rx2 (fun r => { r with fifo := [entry 7], window := [1, 3, 1] }) up
     Takes s ∧ s.lines[(2 : LineNo)].rx.state = .hunting ∧ [(1 : Code), 3, 1, 7] ≠ s.office.held.som) := by decide +kernel

/-- Line 2 takes a code in TEXT. -/
abbrev TakesText (s : State) : Prop :=
  Takes s ∧ s.lines[(2 : LineNo)].rx.state = .text ∧ s.lines[(2 : LineNo)].rx.idleClose = false ∧
    s.lines[(2 : LineNo)].rx.asm.current = some 3 ∧
    chainIndex s.lines[(2 : LineNo)].rx.asm.storedLength < s.lines[(2 : LineNo)].rx.asm.blockCount

/-- A receiver in TEXT at the length at which truncation applies, or just below. -/
def longText (length : Nat) (r : Receiver) : Receiver :=
  { textRx r with asm := { (textRx r).asm with storedLength := length, blockCount := 64 } }

theorem witness_TakeText :
    (let s := rx2 (fun r => { longText 3933 r with fifo := [entry 7, entry 8], window := [1, 2, 3, 4] }) up
     TakesText s ∧ [(2 : Code), 3, 4, 7] ≠ s.office.held.eom ∧ s.lines[(2 : LineNo)].rx.asm.storedLength < 3934 ∧ Room 1 s) ∧
    (let s := rx2 (fun r => { longText 3934 r with fifo := [entry 7], window := [5, 5, 5] }) up
     TakesText s ∧ [(5 : Code), 5, 5, 7] ≠ s.office.held.eom ∧ 3934 ≤ s.lines[(2 : LineNo)].rx.asm.storedLength) ∧
    (let s := waits .report (rx2 (fun r => { longText 3934 r with fifo := [entry 5], window := [5, 5, 5] }) up)
     TakesText s ∧ s.lines[(2 : LineNo)].rx.asm.storedLength = 3934 ∧ [(5 : Code), 5, 5, 5] = s.office.held.eom ∧
       s.port.waiting ≠ [] ∧ Issuer.receiver 2 ∉ s.port.waiting) ∧
    (∀ fault : Bool, let s := rx2 (fun r => { longText 3933 r with
       fifo := [entry 5], window := [2, 5, 5, 5], asm := { (longText 3933 r).asm with headerFault := fault } }) up
     TakesText s ∧ [(5 : Code), 5, 5, 5] = s.office.held.eom ∧ s.lines[(2 : LineNo)].rx.asm.storedLength < 3934 ∧
       Room 17 s ∧ s.lines[(2 : LineNo)].settingsPending = false ∧ s.lines[(2 : LineNo)].rx.asm.incomplete = false ∧
       s.lines[(2 : LineNo)].rx.asm.first = some 3 ∧ s.lines[(2 : LineNo)].rx.asm.headerFault = fault) := by
  refine ⟨?_, ?_, ?_, ?_⟩ <;> decide +kernel

/-- A receiver in TEXT whose next character, text position 32, needs a second block. -/
def needsSecond (s : State) : State :=
  rx2 (fun r => { textRx r with
    fifo := [entry 7, entry 8], window := [1, 2, 3, 4], asm := { (textRx r).asm with storedLength := 32 } }) s

/-- The conditions of that take. -/
abbrev TakesBlock (s : State) : Prop :=
  Takes s ∧ s.lines[(2 : LineNo)].rx.state = .text ∧ s.lines[(2 : LineNo)].rx.idleClose = false ∧
    s.lines[(2 : LineNo)].rx.asm.current = some 3 ∧ s.lines[(2 : LineNo)].rx.asm.first = some 3 ∧
    s.lines[(2 : LineNo)].rx.asm.storedLength < 3934 ∧
    s.lines[(2 : LineNo)].rx.asm.blockCount ≤ chainIndex s.lines[(2 : LineNo)].rx.asm.storedLength

theorem witness_TakeText_block :
    (let s := needsSecond up
     TakesBlock s ∧ s.pool.free = 0 :: (List.range 16).tail ∧ s.walker.offered = none ∧
       [(2 : Code), 3, 4, 7] ≠ s.office.held.eom ∧ Room 2 s) ∧
    (let s := waits .report (needsSecond up)
     TakesBlock s ∧ s.pool.free = 0 :: (List.range 16).tail ∧ s.walker.offered = none ∧ s.port.waiting ≠ [] ∧
       Issuer.receiver 2 ∉ s.port.waiting) ∧
    (TakesBlock (needsSecond (noFree up)) ∧ (needsSecond (noFree up)).pool.free = []) := by
  refine ⟨?_, ?_, ?_⟩ <;> decide +kernel

/-- Line 2 takes code `c` in HEADER at header count 46 or 47, with this window and these parsed fields. -/
def headerTake (c : Code) (window : List Code) (f : Assembly → Assembly) : State :=
  rx2 (fun r => { textRx r with
    state := .header, fifo := [entry c], window := window
    asm := f { (textRx r).asm with stage := .stations, headerCount := 46 } }) up

/-- The conditions of a take in HEADER of code `c`. -/
abbrev TakesHeader (s : State) : Prop :=
  Takes s ∧ s.lines[(2 : LineNo)].rx.state = .header ∧ s.lines[(2 : LineNo)].rx.idleClose = false ∧
    s.lines[(2 : LineNo)].rx.asm.current = some 3 ∧
    chainIndex s.lines[(2 : LineNo)].rx.asm.storedLength < s.lines[(2 : LineNo)].rx.asm.blockCount ∧ Room 1 s

/-- An entry that follows a gap, in a receiver of this state and stored length. -/
def gapTake (st : RxState) (length : Nat) : State :=
  rx2 (fun r => { longText length r with state := st, fifo := [{ entry 5 with gapBefore := true }], window := [5, 5, 5] }) up

/-- The conditions of a take of an entry that follows a gap. -/
abbrev TakesGap (s : State) : Prop :=
  Quiet s ∧ (2 : LineNo) ∉ s.pool.starved ∧ s.lines[(2 : LineNo)].rx.asm.awaiting = [] ∧
    s.lines[(2 : LineNo)].rx.unplaced = none ∧ s.lines[(2 : LineNo)].rx.fifo = [{ entry 5 with gapBefore := true }] ∧
    s.office.held.som.length = 4 ∧ s.office.held.eom.length = 4 ∧ s.lines[(2 : LineNo)].rx.idleClose = false ∧
    s.lines[(2 : LineNo)].rx.asm.current = some 3

theorem witness_TakeHeader :
    (let s := headerTake 2 [1, 2, 3, 4] (fun a => { a with headerCount := 47 })
     TakesHeader s ∧ [(2 : Code), 3, 4, 2] ≠ s.office.held.eom ∧ (2 : Code) = s.office.held.lf) ∧
    (let s := headerTake 11 [1, 2, 3, 4] (fun a => { a with stage := .precedence })
     TakesHeader s ∧ (11 : Code) ≠ s.office.held.lf ∧ [(2 : Code), 3, 4, 11] ≠ s.office.held.eom ∧
       s.lines[(2 : LineNo)].rx.asm.headerCount + 1 < 48) ∧
    (let s := headerTake 7 [1, 2, 3, 4] (fun a => { a with headerCount := 47 })
     TakesHeader s ∧ 48 ≤ s.lines[(2 : LineNo)].rx.asm.headerCount + 1) ∧
    (let s := walking (walkOf .release 2 0 none) (headerTake 5 [1, 5, 5, 5] (fun a => { a with heldToken := some 1 }))
     TakesHeader s ∧ [(5 : Code), 5, 5, 5] = s.office.held.eom ∧ s.lines[(2 : LineNo)].rx.asm.headerCount + 1 < 48 ∧
       s.walker.walk ≠ none ∧ s.lines[(2 : LineNo)].rx.asm.first = some 3 ∧
       s.lines[(2 : LineNo)].rx.asm.incomplete = false ∧ s.lines[(2 : LineNo)].settingsPending = false ∧ Room 17 s) ∧
    (∀ a : Assembly, Parsed setup 11 a (if (11 : Code) = setup.ltrs ∨ (11 : Code) = setup.figs ∨ (11 : Code) = setup.space ∨
      (11 : Code) = setup.cr then a else parseToken setup 11 a)) ∧
    TakesGap (gapTake .hunting 20) ∧
    (TakesGap (gapTake .text 3934) ∧ (gapTake .text 3934).lines[(2 : LineNo)].rx.asm.storedLength = 3934) ∧
    (let s := gapTake .text 3932
     TakesGap s ∧ s.lines[(2 : LineNo)].rx.asm.storedLength + 1 < 3934 ∧ Room 2 s ∧
       chainIndex (s.lines[(2 : LineNo)].rx.asm.storedLength + 1) < s.lines[(2 : LineNo)].rx.asm.blockCount) ∧
    (let s := waits .report (gapTake .text 3933)
     TakesGap s ∧ s.lines[(2 : LineNo)].rx.asm.storedLength < 3934 ∧ s.port.waiting ≠ [] ∧
       Issuer.receiver 2 ∉ s.port.waiting) ∧
    TakesGap (waits .report (gapTake .header 20)) := by
  refine ⟨?_, ?_, ?_, ?_, fun a => parsed_iff.2 rfl, ?_, ?_, ?_, ?_, ?_⟩ <;> decide +kernel

theorem witness_IdleClose :
    (let s := rx2 (fun r => { textRx r with idleTimer := some 2559 }) up
     Quiet s ∧ s.lines[(2 : LineNo)].rx.state = .text ∧ s.lines[(2 : LineNo)].rx.idleTimer ≠ none) ∧
    (let s := walking (walkOf .release 2 0 none) (rx2 (fun r => { textRx r with idleClose := true }) up)
     s.resetIn = false ∧ s.report.offers = [] ∧ s.walker.walk ≠ none ∧ s.lines[(2 : LineNo)].rx.state = .text ∧
       s.lines[(2 : LineNo)].rx.idleClose = true ∧ s.lines[(2 : LineNo)].rx.closePoint = 0 ∧ (2 : LineNo) ∉ s.pool.starved ∧
       s.lines[(2 : LineNo)].rx.asm.awaiting = [] ∧ s.lines[(2 : LineNo)].rx.unplaced = none ∧
       s.lines[(2 : LineNo)].rx.pendingGap = false ∧ s.lines[(2 : LineNo)].settingsPending = false ∧
       s.lines[(2 : LineNo)].rx.asm.first = some 3 ∧ s.lines[(2 : LineNo)].rx.asm.current = some 3 ∧ Room 16 s) := by
  decide +kernel

theorem witness_Break :
    (let s := tx2 .pointToPoint id up
     LineOn s ∧ s.lines[(2 : LineNo)].tx.state = .idle ∧ s.lines[(2 : LineNo)].inBreak = false ∧
       s.lines[(2 : LineNo)].rx.state = .hunting) ∧
    (let s := tx2 .party id up
     LineOn s ∧ s.lines[(2 : LineNo)].active.type = .party ∧ s.lines[(2 : LineNo)].inBreak = false ∧
       s.lines[(2 : LineNo)].rx.state = .hunting) ∧
    (let s := line2 .party (fun l => { l with rx := { l.rx with state := .header } }) up
     LineOn s ∧ s.lines[(2 : LineNo)].inBreak = false ∧ s.lines[(2 : LineNo)].rx.state = .header ∧
       s.lines[(2 : LineNo)].rx.idleClose = false ∧ s.lines[(2 : LineNo)].rx.unplaced = none ∧
       s.lines[(2 : LineNo)].rx.asm.blockCount = 0) ∧
    (let s := line2 .party (fun l => { l with rx := textRx l.rx }) (serving (byteReq 9 true 3 (.receiver 2) .rxByte) up)
     LineOn s ∧ s.lines[(2 : LineNo)].inBreak = false ∧ s.lines[(2 : LineNo)].rx.state = .text ∧
       s.lines[(2 : LineNo)].rx.idleClose = false ∧ s.lines[(2 : LineNo)].rx.unplaced = none ∧
       0 < s.lines[(2 : LineNo)].rx.asm.blockCount ∧ s.lines[(2 : LineNo)].rx.asm.first = some 3 ∧
       0 < placedCount (.receiver 2) s ∧ s.lines[(2 : LineNo)].rx.abandon = []) ∧
    (let s := line2 .party (fun l => { l with inBreak := true }) up
     LineOn s ∧ s.lines[(2 : LineNo)].inBreak = true) := by decide +kernel

/-- A party line in HEADER with a point-to-point line's settings pending. -/
def turning : State :=
  line2 .party (fun l => { l with
    settingsPending := true, shadow := { l.shadow with type := .pointToPoint }, rx := { l.rx with state := .header } })
    (updQueue 2 (fun _ => [7]) (with7 .queued up))

theorem witness_Break_transfer :
    Quiet turning ∧ turning.lines[(2 : LineNo)].tx.state = .idle ∧ turning.lines[(2 : LineNo)].active.type = .party ∧
      turning.lines[(2 : LineNo)].settingsPending = true ∧ turning.lines[(2 : LineNo)].shadow.type = .pointToPoint ∧
      turning.lines[(2 : LineNo)].inBreak = false ∧ turning.lines[(2 : LineNo)].rx.state = .header ∧
      turning.lines[(2 : LineNo)].rx.idleClose = false ∧ turning.lines[(2 : LineNo)].rx.unplaced = none ∧
      turning.lines[(2 : LineNo)].rx.asm.blockCount = 0 := by decide +kernel

/-- R129, R139: the line pauses, and the steady mark after the break ends the PAUSE with a selection. -/
theorem test_break_turns_line :
    let s := after (.breakDetection 2) turning
    let t := after (.steadyMark 2) (after (.breakEnd 2) s)
    (s.lines[2].tx.state, s.lines[2].active.type) = (.pause, .pointToPoint) ∧
    (t.lines[2].tx.state, t.du.active[2]) = (.sending, some 7) := by decide +kernel

theorem witness_Break_transmitter :
    (let s := line2 .pointToPoint (fun l => { l with rx := textRx l.rx, tx := sendingTx l.tx })
       (serving (byteReq 9 true 3 (.receiver 2) .rxByte) (active7 up))
     LineOn s ∧ s.lines[(2 : LineNo)].inBreak = false ∧ s.lines[(2 : LineNo)].active.type = .pointToPoint ∧
       s.lines[(2 : LineNo)].tx.state = .sending ∧ s.lines[(2 : LineNo)].tx.sending ≠ none ∧
       s.lines[(2 : LineNo)].rx.state = .text ∧ s.lines[(2 : LineNo)].rx.idleClose = false ∧
       s.lines[(2 : LineNo)].rx.unplaced = none ∧ 0 < s.lines[(2 : LineNo)].rx.asm.blockCount ∧
       0 < placedCount (.receiver 2) s ∧ s.lines[(2 : LineNo)].rx.abandon = []) ∧
    (let s := tx2 .pointToPoint (fun t => { t with state := .held }) up
     LineOn s ∧ s.lines[(2 : LineNo)].inBreak = false ∧ s.lines[(2 : LineNo)].tx.state ≠ .idle ∧
       s.lines[(2 : LineNo)].tx.state ≠ .sending ∧ s.lines[(2 : LineNo)].rx.state = .hunting) ∧
    (let s := tx2 .pointToPoint (fun t => { sendingTx t with sending := none }) (active7 up)
     FreeTx s ∧ s.lines[(2 : LineNo)].inBreak = false ∧ s.lines[(2 : LineNo)].active.type = .pointToPoint ∧
       s.lines[(2 : LineNo)].tx.state = .sending ∧ s.lines[(2 : LineNo)].rx.state = .hunting ∧
       s.lines[(2 : LineNo)].tx.owed = none ∧ s.lines[(2 : LineNo)].tx.opening = [] ∧
       s.lines[(2 : LineNo)].tx.holding = [] ∧ s.lines[(2 : LineNo)].tx.stopping = false ∧
       s.lines[(2 : LineNo)].tx.hand = some hand7 ∧ s.du.entries[hand7.number].cancelPending = false ∧
       s.du.entries[hand7.number].attempts < 2 ∧ s.du.entries[hand7.number].line = 2 ∧
       s.du.active[(2 : LineNo)] = some hand7.number ∧ s.du.rewrites = []) := by
  refine ⟨?_, ?_, ?_⟩ <;> decide +kernel

theorem witness_LoopOpen :
    (let s := tx2 .pointToPoint id up
     LineOn s ∧ s.lines[(2 : LineNo)].faulted = false) ∧
    (let s := line2 .pointToPoint (fun l => { l with faulted := true }) up
     LineOn s ∧ s.lines[(2 : LineNo)].faulted = true ∧ s.lines[(2 : LineNo)].active.type = .pointToPoint) := by decide +kernel

theorem witness_SteadyMark :
    (let s := tx2 .pointToPoint id up
     LineOn s ∧ s.lines[(2 : LineNo)].faulted = false ∧ s.lines[(2 : LineNo)].recovery = false) ∧
    (let s := line2 .party (fun l => { l with faulted := true }) up
     LineOn s ∧ s.lines[(2 : LineNo)].faulted = true ∧ s.lines[(2 : LineNo)].recovery = false ∧
       s.lines[(2 : LineNo)].active.type = .party) ∧
    (∀ faulted : Bool, let s := line2 .party (fun l => { l with faulted := faulted, recovery := true }) up
     LineOn s ∧ s.lines[(2 : LineNo)].faulted = faulted ∧ s.lines[(2 : LineNo)].tx.state ≠ .pause ∧
       s.lines[(2 : LineNo)].active.type = .party) ∧
    (let s := line2 .pointToPoint (fun l => { l with recovery := true, tx := { l.tx with state := .pause } }) up
     LineOn s ∧ s.lines[(2 : LineNo)].faulted = false ∧ s.lines[(2 : LineNo)].recovery = true ∧
       s.lines[(2 : LineNo)].active.type = .pointToPoint ∧ s.lines[(2 : LineNo)].tx.state = .pause ∧
       s.du.queues[(2 : LineNo)] = []) := by decide +kernel

theorem witness_StartEdge :
    (let s := tx2 .pointToPoint id up
     LineOn s ∧ s.lines[(2 : LineNo)].sampler.state ≠ .inCharacter ∧ s.lines[(2 : LineNo)].inBreak = false) ∧
    (let s := line2 .party (fun l => { l with sampler := { l.sampler with state := .inCharacter } }) up
     LineOn s ∧ s.lines[(2 : LineNo)].sampler.state = .inCharacter) := by decide +kernel

theorem witness_Commit :
    (Accessible routed ∧ running routed = true ∧ commitFailure routed.router.shadow = none) ∧
    (let s := { up with router := { up.router with shadow := stations.set 9 (station 612 6) } }
     Accessible s ∧ commitFailure s.router.shadow = some (9, 1)) := by decide +kernel

theorem witness_StationShadowWrite : Accessible up ∧ (⟨true, false⟩ : ByteEnables) ≠ .both := by decide +kernel

theorem witness_DeliveryPlanBounds :
    message.dests.length ≤ 8 ∧ message.directed = false ∧ (deliveryPlan routed message).length = 2 ∧
    (station 5 23).line.toNat < 24 ∧ ∀ v ∈ ([23, 0, 23] : List Word), v.toNat < 24 := by
  refine ⟨?_, ?_, ?_, ?_, by simp⟩ <;> decide +kernel

theorem witness_DeliveryPlanBounds_resolution :
    (∀ k : StationNo, stations[k].valid = true → stations[k].code.toNat ≠ (1024 : Word).toNat) ∧
    stations[(0 : StationNo)] = station 769 3 ∧
    stations[(2 : StationNo)] = ⟨true, 410, 6, some 96, true, .diverted, 5⟩ ∧
    stations[(5 : StationNo)].service = .inService ∧
    stations[(4 : StationNo)] = ⟨true, 550, 9, none, false, .outOfService, 0⟩ ∧
    (stations.set 4 ⟨true, 550, 9, none, false, .diverted, 64⟩)[(4 : StationNo)].divert = 64 := by decide +kernel

theorem witness_DeliveryPlanBounds_lines :
    (message.dests.filterMap (resolve routed.router.active)).eraseDups = [0, 1, 5] ∧
    stationLine routed.router.active[(0 : StationNo)] = 3 ∧ routed.lines[(3 : LineNo)].active.type = .pointToPoint ∧
    stationLine routed.router.active[(5 : StationNo)] = 6 ∧ routed.lines[(6 : LineNo)].active.type = .party := by
  decide +kernel

/-- No transit entry is free. -/
def transitFull : State :=
  { routed with du := { routed.du with transit := Vector.replicate 128 { Transit.reset with state := .live } } }

theorem witness_RoutingOutcome :
    deliveryPlan up message = [] ∧
    (deliveryPlan transitFull message ≠ [] ∧ ∀ k : TransitNo, transitFull.du.transit[k].state ≠ .free) ∧
    (deliveryPlan routed message ≠ [] ∧ (deliveryPlan routed message).length ≤ freeDeliveries routed ∧
      routed.du.transit[(0 : TransitNo)].state = .free ∧ message.cls ≠ 0 ∧ ∀ j : TransitNo, ¬ j < 0) ∧
    (let s := ring15 { routed with lines := up.lines.set 6 { LineUnit.reset with active := ⟨844, true, .one, .party⟩ } }
     s.report.offers = [] ∧ message.dests.length ≤ 8 ∧ (deliveryPlan s message).map (fun p => p.line) = [3, 6] ∧
       (deliveryPlan s message).length ≤ freeDeliveries s ∧ s.du.transit[(0 : TransitNo)].state = .free ∧
       (∀ n : LineNo, s.lines[n].tx.state ≠ .idle) ∧ s.du.rewrites = [] ∧ Room 5 s ∧ RingRoom 1 s) := by
  refine ⟨?_, ?_, ?_, ?_⟩ <;> decide +kernel

theorem witness_EffectiveClass :
    { up with office := { up.office with held := HeldSetup.reset } }.office.held.ageing = 0 ∧
    (up.office.clock.toNat < { delivery .queued with queuedTime := 1001 }.queuedTime.toNat) ∧
    (0 < up.office.held.ageing ∧ (delivery .queued).queuedTime.toNat ≤ up.office.clock.toNat ∧ 0 < (delivery .queued).cls ∧
      1 * up.office.held.ageing ≤ up.office.clock.toNat - (delivery .queued).queuedTime.toNat ∧
      up.office.clock.toNat - (delivery .queued).queuedTime.toNat < (1 + 1) * up.office.held.ageing) := by decide +kernel

theorem witness_Selection :
    selection (updQueue 2 (fun _ => [7]) (with7 .queued (tx2 .pointToPoint id up))) 2 = some 7 ∧ selection up 2 = none := by
  decide +kernel

theorem witness_CancelWord :
    (Commands up ∧ 256 ≤ (256 : Word).toNat ∧ (255 : DeliveryNo).val = (255 : Word).toNat ∧
      up.du.entries[(255 : DeliveryNo)].state = .free) ∧
    (let s := tx2 .pointToPoint sendingTx (active7 up)
     Commands s ∧ s.du.entries[(7 : DeliveryNo)].state = .active ∧ s.du.entries[(7 : DeliveryNo)].cancelPending = false ∧
       s.lines[s.du.entries[(7 : DeliveryNo)].line].tx.sending ≠ none ∧
       s.lines[s.du.entries[(7 : DeliveryNo)].line].tx.state ≠ .answerWait) ∧
    (let s := updEntry 7 (fun e => { e with cancelPending := true }) (active7 up)
     Commands s ∧ s.du.entries[(7 : DeliveryNo)].state = .active ∧ s.du.entries[(7 : DeliveryNo)].cancelPending = true) ∧
    (let s := { with7 .waiting up with port := { up.port with waiting := [.report] } }
     Commands s ∧ s.du.entries[(7 : DeliveryNo)].state = .waiting ∧ s.du.active[(2 : LineNo)] ≠ some 7 ∧
       s.du.transit[(1 : TransitNo)].outstanding = 1 + 1 ∧ s.port.waiting ≠ []) ∧
    (let s := updTransit 1 (fun t => { t with outstanding := 1 }) (updQueue 2 (fun _ => [7])
       { with7 .queued up with port := { up.port with waiting := [.report] } })
     Commands s ∧ s.du.entries[(7 : DeliveryNo)].state = .queued ∧ s.du.active[(2 : LineNo)] ≠ some 7 ∧
       s.du.transit[(1 : TransitNo)].outstanding = 0 + 1 ∧ s.port.waiting ≠ []) ∧
    (let s := ring15 (with7 .waiting up)
     Commands s ∧ s.du.entries[(7 : DeliveryNo)].state = .waiting ∧ s.du.active[(2 : LineNo)] ≠ some 7 ∧
       s.du.transit[(1 : TransitNo)].outstanding = 1 + 1 ∧ s.du.rewrites = [] ∧ Room 5 s ∧ RingRoom 1 s) ∧
    (let s := walking (walkOf .release 2 0 none) (updTransit 1 (fun t => { t with outstanding := 1 })
       (updQueue 2 (fun _ => [7]) (with7 .queued up)))
     Commands s ∧ s.du.entries[(7 : DeliveryNo)].state = .queued ∧ s.du.active[(2 : LineNo)] ≠ some 7 ∧
       s.du.transit[(1 : TransitNo)].outstanding = 0 + 1 ∧ s.du.rewrites = [] ∧ Room 5 s ∧ RingRoom 1 s ∧
       s.walker.walk ≠ none) := by
  refine ⟨?_, ?_, ?_, ?_, ?_, ?_, ?_⟩ <;> decide +kernel

/-- Delivery 7 is the last of its message of two blocks, the first of them block 3. -/
def lastOf2 (auto : Bool) : State :=
  ring15 (updTransit 1 (fun t => { t with outstanding := 1, blockCount := 2, autoRelease := auto })
    (with7 .waiting (block3 .owned up)))

theorem witness_CancelWord_ends : ∀ auto : Bool, let s := lastOf2 auto
    Commands s ∧ s.du.entries[(7 : DeliveryNo)].state = .waiting ∧ s.du.active[(2 : LineNo)] ≠ some 7 ∧
      s.du.entries[(7 : DeliveryNo)].line = 2 ∧ s.du.entries[(7 : DeliveryNo)].transit = 1 ∧
      s.du.transit[(1 : TransitNo)].outstanding = 1 ∧ s.du.transit[(1 : TransitNo)].blockCount = 2 ∧
      s.du.transit[(1 : TransitNo)].autoRelease = auto ∧ blockState s s.du.transit[(1 : TransitNo)].first = some .owned ∧
      s.du.rewrites = [] ∧ Room 7 s ∧ RingRoom 1 s ∧ s.walker.walk = none ∧ s.walker.links = [] := by decide +kernel

/-- R177: the head rewrite, the report attached to it, and then the first request of the walk. -/
theorem test_walk_after_reports :
    (requests (after (.cancelWord 7 .both) (lastOf2 true))).map (fun r => r.issuer) =
      [.delivery, .report, .report, .report, .report, .walker] := by decide +kernel

theorem witness_OneRewritePerHead :
    ([⟨38, 3, [], none⟩, ⟨70, 1, [], none⟩] : List Rewrite) = [] ++ ⟨38, 3, [], none⟩ :: [⟨70, 1, [], none⟩] ∧
    (([⟨38, 3, [], none⟩, ⟨70, 1, [], none⟩] : List Rewrite).map Rewrite.addr).Nodup := by decide +kernel

theorem witness_ClockCommands :
    (Quiet up ∧ running up = true ∧ up.office.advanceVoid = false ∧ Accessible up ∧ up.office.captured = none ∧
      (5 : BitVec 32).toNat = (0 : Word).toNat * 65536 + (5 : Word).toNat) ∧
    (∀ v, NoneDue v up) ∧
    (let s := with7 .waiting up
     Quiet s ∧ running s = true ∧ s.office.advanceVoid = false ∧ s.du.entries[(7 : DeliveryNo)].state = .waiting ∧
       s.du.entries[(7 : DeliveryNo)].retryTime.toNat ≤ (s.office.clock + 1).toNat ∧
       s.du.entries[(7 : DeliveryNo)].line = 2 ∧ s.lines[(2 : LineNo)].tx.state ≠ .idle ∧
       s.du.entries[(7 : DeliveryNo)].cls ≠ 0) ∧
    (∀ j : DeliveryNo, j ≠ 7 → (with7 .waiting up).du.entries[j].state ≠ .waiting) := by
  refine ⟨by decide +kernel, ?_, by decide +kernel, ?_⟩
  · intro v d h
    simp [up, State.reset, DeliveryUnit.reset, Delivery.reset] at h
  · intro j hj
    have h : (7 : Nat) ≠ j.val := fun e => hj (Fin.ext e.symm)
    simp [with7, updTransit, updEntry, up, State.reset, DeliveryUnit.reset, Delivery.reset, h]

/-- A flash, delivery 7, is due on line 2, whose delivery 8 in hand has this class. -/
def flashDue (cls : Nat) (f : Transmitter → Transmitter) : State :=
  setActive 2 (some 8) (updEntry 8 (fun _ => { delivery .active with cls := cls, queuedTime := 1000 })
    (updEntry 7 (fun e => { e with cls := 0 }) (tx2 .party (fun t => f { sendingTx t with hand := some { hand7 with number := 8 } })
      (with7 .waiting up))))

/-- The conditions under which that flash makes the preemption test at an advance of the clock. -/
abbrev FlashEnters (s : State) : Prop :=
  Quiet s ∧ running s = true ∧ s.office.advanceVoid = false ∧ s.du.entries[(7 : DeliveryNo)].state = .waiting ∧
    s.du.entries[(7 : DeliveryNo)].cls = 0 ∧ s.du.entries[(7 : DeliveryNo)].line = 2 ∧
    s.du.entries[(7 : DeliveryNo)].retryTime.toNat ≤ (s.office.clock + 1).toNat ∧
    (∀ j : DeliveryNo, j ≠ 7 → s.du.entries[j].state ≠ .waiting) ∧
    s.lines[(2 : LineNo)].tx.hand = some { hand7 with number := 8 } ∧ s.lines[(2 : LineNo)].tx.state = .sending

theorem witness_ClockCommands_flash :
    (let s := { up with office := { up.office with advanceVoid := true } }
     Quiet s ∧ running s = true ∧ s.office.advanceVoid = true) ∧
    (let s := flashDue 1 id
     FlashEnters s ∧ effectiveClass { s with office := { s.office with clock := s.office.clock + 1, divider := 0 } }
       s.du.entries[(8 : DeliveryNo)] < 2) ∧
    (let s := flashDue 2 id
     FlashEnters s ∧ s.lines[(2 : LineNo)].tx.breakInPending = false ∧ s.lines[(2 : LineNo)].tx.sending ≠ none ∧
       2 ≤ effectiveClass { s with office := { s.office with clock := s.office.clock + 1, divider := 0 } }
         s.du.entries[(8 : DeliveryNo)]) ∧
    (let s := flashDue 2 (fun t => { t with sending := none })
     FlashEnters s ∧ s.lines[(2 : LineNo)].tx.breakInPending = false ∧ s.lines[(2 : LineNo)].tx.sending = none ∧
       s.lines[(2 : LineNo)].active.type = .party ∧ s.du.entries[(8 : DeliveryNo)].cancelPending = false ∧
       s.du.entries[(8 : DeliveryNo)].line = 2 ∧ s.du.active[(2 : LineNo)] = some 8 ∧ s.du.rewrites = [] ∧
       2 ≤ effectiveClass { s with office := { s.office with clock := s.office.clock + 1, divider := 0 } }
         s.du.entries[(8 : DeliveryNo)]) := by
  refine ⟨?_, ?_, ?_, ?_⟩ <;> decide +kernel

theorem witness_Enable :
    (Commands up ∧ up.lines[(2 : LineNo)].tx.state = .off ∧ up.office.holdLatch = false) ∧
    (Commands (latched up) ∧ (latched up).lines[(2 : LineNo)].tx.state = .off ∧ (latched up).office.holdLatch = true) ∧
    (Commands (tx2 .party id up) ∧ (tx2 .party id up).lines[(2 : LineNo)].tx.state ≠ .off) := by decide +kernel

theorem witness_Disable :
    (Commands up ∧ up.lines[(2 : LineNo)].tx.state = .off) ∧
    (let s := tx2 .party sendingTx up
     Commands s ∧ Sends ⟨.frame 3 .oneAndHalf, 40⟩ s ∧ s.lines[(2 : LineNo)].tx.stopping = false) ∧
    (let s := tx2 .party id up
     Commands s ∧ FreeTx s ∧ s.lines[(2 : LineNo)].tx.stopping = false ∧ s.lines[(2 : LineNo)].tx.hand = none ∧
       s.lines[(2 : LineNo)].rx.state = .hunting) := by decide +kernel

theorem witness_LineReset :
    (Commands up ∧ up.lines[(2 : LineNo)].settingsPending = false ∧ up.lines[(2 : LineNo)].tx.state = .off) ∧
    (let s := tx2 .party id up
     Commands s ∧ LineOn s ∧ s.lines[(2 : LineNo)].tx.hand = none ∧ s.lines[(2 : LineNo)].rx.state = .hunting) := by
  decide +kernel

/-- The Report Unit waits, and a read of line 9 has the store. -/
def stalled (s : State) : State :=
  { s with port := { s.port with waiting := [.report], cycle := some (.internal (readReq 5 (.transmitter 9) .txText)) } }

/-- Delivery 7, of a message with one delivery more, is in hand in ANSWER WAIT. -/
def answering (cancel : Bool) (f : Receiver → Receiver) : State :=
  line2 .party (fun l => { l with rx := f l.rx, tx := answerTx l.tx })
    (updEntry 7 (fun e => { e with cancelPending := cancel }) (active7 up))

/-- The conditions of a DISABLE or a LINE RESET that takes effect at once with delivery 7 in hand. -/
abbrev LeavesHand (cancel : Bool) (s : State) : Prop :=
  Commands s ∧ FreeTx s ∧ s.lines[(2 : LineNo)].tx.stopping = false ∧ s.lines[(2 : LineNo)].tx.hand = some hand7 ∧
    s.du.entries[hand7.number].line = 2 ∧ s.du.active[(2 : LineNo)] = some hand7.number ∧
    s.du.entries[hand7.number].cancelPending = cancel

/-- A write of the receiver of line 2 has the store. -/
def writesByte (s : State) : State := serving (byteReq 9 true 3 (.receiver 2) .rxByte) s

/-- A second block whose link write waits. -/
def unlinkedRx (r : Receiver) : Receiver :=
  { textRx r with
    asm := { (textRx r).asm with current := some 5, blockCount := 1 + 1, storedLength := 32 }
    unplaced := some (wordReq 96 5 (.receiver 2) .rxLink) }

theorem witness_Disable_LineReset_hand :
    (∀ text : Bool, let s := writesByte (answering false (if text then textRx else id))
     LeavesHand false s ∧ s.du.rewrites = [] ∧ s.lines[(2 : LineNo)].rx.state = (if text then .text else .hunting) ∧
       0 < placedCount (.receiver 2) s) ∧
    (∀ text : Bool, let s := stalled (answering true (if text then textRx else id))
     LeavesHand true s ∧ s.port.waiting ≠ [] ∧
       s.du.transit[s.du.entries[hand7.number].transit].outstanding = 1 + 1 ∧
       s.lines[(2 : LineNo)].rx.state = (if text then .text else .hunting)) := by
  refine ⟨?_, ?_⟩ <;> decide +kernel

/-- Line 2, IDLE with nothing in hand, with this receiver. -/
abbrev LeavesMessage (s : State) : Prop :=
  Commands s ∧ FreeTx s ∧ s.lines[(2 : LineNo)].tx.stopping = false ∧ s.lines[(2 : LineNo)].tx.hand = none

theorem witness_Disable_LineReset_message :
    (let s := { rx2 (fun r => { r with state := .header, asm := { Assembly.reset with awaiting := [1, 3, 1, 3] } }) up with
       pool := { up.pool with free := [], starved := [2] } }
     LeavesMessage s ∧ s.lines[(2 : LineNo)].rx.state = .header ∧ s.lines[(2 : LineNo)].rx.asm.blockCount = 0 ∧
       s.lines[(2 : LineNo)].rx.unplaced = none) ∧
    (∀ closing : Bool, let s := writesByte (rx2 (fun r =>
       { textRx r with state := if closing then .closing else .text, closeNext := 3 }) up)
     LeavesMessage s ∧ s.lines[(2 : LineNo)].rx.state = (if closing then .closing else .text) ∧
       s.lines[(2 : LineNo)].rx.asm.first = some 3 ∧ 0 < s.lines[(2 : LineNo)].rx.asm.blockCount ∧
       s.lines[(2 : LineNo)].rx.unplaced = none ∧ 0 < placedCount (.receiver 2) s ∧
       ∀ a ∈ s.lines[(2 : LineNo)].rx.abandon, 0 < a.remaining) ∧
    (let s := walking (walkOf .release 1 0 none) (rx2 textRx up)
     LeavesMessage s ∧ s.lines[(2 : LineNo)].rx.state = .text ∧ s.lines[(2 : LineNo)].rx.asm.first = some 3 ∧
       0 < s.lines[(2 : LineNo)].rx.asm.blockCount ∧ s.lines[(2 : LineNo)].rx.unplaced = none ∧
       placedCount (.receiver 2) s = 0 ∧ s.lines[(2 : LineNo)].rx.abandon = [] ∧ s.walker.walk ≠ none) ∧
    (let s := writesByte (noFree (rx2 unlinkedRx up))
     LeavesMessage s ∧ s.lines[(2 : LineNo)].rx.state = .text ∧ s.lines[(2 : LineNo)].rx.asm.first = some 3 ∧
       s.lines[(2 : LineNo)].rx.asm.blockCount = 1 + 1 ∧ s.lines[(2 : LineNo)].rx.asm.current = some 5 ∧
       1 < s.lines[(2 : LineNo)].rx.asm.storedLength ∧
       s.lines[(2 : LineNo)].rx.unplaced = some (wordReq 96 5 (.receiver 2) .rxLink) ∧
       0 < placedCount (.receiver 2) s ∧ (∀ a ∈ s.lines[(2 : LineNo)].rx.abandon, 0 < a.remaining) ∧
       (∀ m ∈ s.pool.starved, m = 2) ∧ s.pool.free = []) := by
  refine ⟨?_, ?_, ?_, ?_⟩ <;> decide +kernel

theorem witness_LineSettingsWord :
    (Accessible up ∧ up.lines[(2 : LineNo)].tx.state = .off ∧ up.lines[(2 : LineNo)].rx.state = .off) ∧
    (let s := tx2 .party sendingTx up
     Accessible s ∧ s.lines[(2 : LineNo)].tx.state ≠ .off ∧ s.lines[(2 : LineNo)].tx.state ≠ .idle) := by decide +kernel

theorem witness_SendLevels : 7 < 8 ∧ (4 < 5 ∧ 8 * 4 + 8 ≤ 47 ∧ 47 < 8 * 4 + 16) ∧ 48 ≤ 48 := by decide +kernel

/-- Ticks with the sampler at the boundary samples: the votes of a false start, of a data element and of the stop element,
and the sample period of the reset settings. -/
theorem witness_SendLevels_tick :
    up.resetIn = false ∧ ((if Settings.reset.by8 then 8 else 1) *
      ((if Settings.reset.divisor.toNat < 63 then 63 else Settings.reset.divisor.toNat) + 1) = 6760) ∧
    ∀ k ∈ [4, 12, 44, 52],
      let l := { idleLine .party with
        sampler := { Sampler.reset with state := .inCharacter, sample := k }, recent := (true, false), divider := 6759 }
      l.tx.state ≠ .off ∧ l.sampler.state = .inCharacter ∧ l.sampler.sample ≤ 52 ∧ 6760 ≤ l.divider + 1 ∧
        ∃ u evs, sampleTick setup 2 true l = (u, evs) :=
  ⟨rfl, by decide +kernel, by intro k hk; simp only [List.mem_cons, List.not_mem_nil, or_false] at hk
                              rcases hk with rfl | rfl | rfl | rfl <;>
                                exact ⟨by decide, rfl, by decide, by decide, _, _, rfl⟩⟩

theorem witness_SendLevels_cycle :
    (up.resetIn = false ∧ up.pending = [] ∧ dueEvents up = [] ∧ up.inputs = []) ∧ (inReset none).resetIn = true ∧
    (let s := forwarding ⟨5, none⟩ up
     s.pins.sready = true ∧ s.port.cycle = some (.forwarded ⟨5, none⟩)) ∧
    (let r := wordReq 4099 5 .report (.reportWord true)
     (serving r up).pins.sready = true ∧ Serving r (serving r up)) ∧
    (let l := { idleLine .party with sampler := { Sampler.reset with state := .waitStart, sample := 53 } }
     l.sampler.state ≠ .inCharacter ∧ l.sampler.sample = 53) := by decide +kernel

/-- R57: the second ends at reference cycle 2457600. -/
theorem test_second_ends :
    (clockCycle { up with office := { up.office with divider := 2457599 } }).pending = [.clockAdvance] ∧
    (clockCycle { up with office := { up.office with divider := 2457598 } }).pending = [] := by decide +kernel

/-- R47 to R49: two marks of three make the data element a mark, with noise. -/
theorem test_tick_vote :
    let l := { idleLine .party with
      sampler := { Sampler.reset with state := .inCharacter, sample := 12 }, recent := (true, false) }
    (sampleTick setup 2 true l).1.sampler = { Sampler.reset with state := .inCharacter, sample := 13, code := 1, noise := true } ∧
    (sampleTick setup 2 false l).1.sampler.code = 0 := by decide +kernel

/-- R148: the third space of a mark element's samples 3 to 5 is a collision. -/
theorem test_tick_collision :
    let l := { idleLine .party with recent := (false, false), tx := { Transmitter.reset with
      state := .preamble, sending := some ⟨.preamble, 8 * 7 + 4⟩ } }
    (sampleTick setup 2 false l).2.contains (.collision 2) = true := by decide +kernel

theorem witness_FrameStart :
    (let s := tx2 .party (fun t => { t with state := .preamble, owed := some .preamble }) up
     FreeTx s ∧ s.lines[(2 : LineNo)].tx.owed = some .preamble) ∧
    (let s := tx2 .party (fun t => { t with state := .breakIn, owed := some .breakIn }) up
     FreeTx s ∧ s.lines[(2 : LineNo)].tx.owed = some .breakIn) ∧
    (let s := tx2 .party (fun t => { sendingTx t with sending := none, opening := [9, 8] }) up
     FreeTx s ∧ s.lines[(2 : LineNo)].tx.owed = none ∧ s.lines[(2 : LineNo)].tx.state = .sending ∧
       s.lines[(2 : LineNo)].tx.opening = [9, 8]) ∧
    (let s := tx2 .party (fun t => { sendingTx t with sending := none, lenKnown := true, holding := [64, 31] }) up
     FreeTx s ∧ s.lines[(2 : LineNo)].tx.owed = none ∧ s.lines[(2 : LineNo)].tx.state = .sending ∧
       s.lines[(2 : LineNo)].tx.opening = [] ∧ s.lines[(2 : LineNo)].tx.lenKnown = true ∧
       s.lines[(2 : LineNo)].tx.holding = [64, 31] ∧ (31 : Byte).toNat < 32) := by decide +kernel

theorem witness_PreambleAndBreakInEnd :
    (let s := line2 .pointToPoint (fun l =>
       { l with recovery := true, tx := { l.tx with state := .preamble, sending := some ⟨.preamble, 63⟩ } }) up
     Sends ⟨.preamble, 63⟩ s ∧ s.lines[(2 : LineNo)].active.type = .pointToPoint ∧ s.lines[(2 : LineNo)].recovery = true) ∧
    (let s := tx2 .party (fun t => { t with state := .breakIn, sending := some ⟨.breakIn, 191⟩ }) up
     Sends ⟨.breakIn, 191⟩ s ∧ s.lines[(2 : LineNo)].tx.stopping = false ∧
       s.lines[(2 : LineNo)].tx.breakInPending = false ∧ s.du.queues[(2 : LineNo)] = []) ∧
    (let s := tx2 .party (fun t => { t with state := .preamble, sending := some ⟨.preamble, 63⟩ })
       (updQueue 2 (fun _ => [7]) (with7 .queued up))
     Sends ⟨.preamble, 63⟩ s ∧ s.du.queues[(2 : LineNo)] ≠ [] ∧ s.lines[(2 : LineNo)].active.type = .party ∧
       s.lines[(2 : LineNo)].tx.backingOff = false) ∧
    (let s := tx2 .pointToPoint (fun t => { t with state := .breakIn, sending := some ⟨.breakIn, 191⟩, breakInPending := true })
       (updQueue 2 (fun _ => [7]) (with7 .queued up))
     Sends ⟨.breakIn, 191⟩ s ∧ s.lines[(2 : LineNo)].tx.stopping = false ∧ s.lines[(2 : LineNo)].tx.breakInPending = true ∧
       s.lines[(2 : LineNo)].active.type = .pointToPoint ∧ s.lines[(2 : LineNo)].recovery = false ∧
       s.lines[(2 : LineNo)].tx.state = .breakIn ∧ s.lines[(2 : LineNo)].faulted = false ∧ s.office.holdLatch = false ∧
       s.du.active[(2 : LineNo)] = none ∧ s.du.queues[(2 : LineNo)] = [7]) := by decide +kernel

theorem witness_PreambleAndBreakInEnd_stopping :
    let s := tx2 .party (fun t => { t with state := .breakIn, sending := some ⟨.breakIn, 191⟩, stopping := true }) up
    Sends ⟨.breakIn, 191⟩ s ∧ s.lines[(2 : LineNo)].tx.stopping = true ∧ s.lines[(2 : LineNo)].tx.hand = none ∧
      s.lines[(2 : LineNo)].rx.state = .hunting := by decide +kernel

/-- The distant station breaks in while delivery 7 is sent for the time after so many attempts. -/
def distantBreak (attempts : Nat) : State :=
  line2 .pointToPoint (fun l => { l with
      recovery := true, tx := { sendingTx l.tx with opening := [9, 8], distantBreak := true } })
    (updEntry 7 (fun e => { e with attempts := attempts }) (active7 up))

theorem witness_CharacterBoundary :
    (let s := tx2 .pointToPoint (fun t => { sendingTx t with opening := [9, 8] }) (active7 up)
     SendsHand s ∧ s.du.entries[hand7.number].transit = 1 ∧ s.lines[(2 : LineNo)].tx.state = .sending ∧
       s.lines[(2 : LineNo)].tx.opening = [9, 8] ∧ s.lines[(2 : LineNo)].tx.distantBreak = false ∧
       s.lines[(2 : LineNo)].tx.breakInPending = false ∧ s.du.entries[hand7.number].cancelPending = false) ∧
    (let s := tx2 .pointToPoint (fun t => { sendingTx t with lenKnown := true, effLen := 30, readPos := 30 }) (active7 up)
     SendsHand s ∧ s.lines[(2 : LineNo)].tx.state = .sending ∧ s.lines[(2 : LineNo)].tx.opening = [] ∧
       s.lines[(2 : LineNo)].tx.lenKnown = true ∧ s.lines[(2 : LineNo)].tx.holding = [] ∧
       s.lines[(2 : LineNo)].tx.effLen ≤ s.lines[(2 : LineNo)].tx.readPos ∧
       s.lines[(2 : LineNo)].active.type = .pointToPoint ∧ s.lines[(2 : LineNo)].recovery = false ∧
       s.du.queues[(2 : LineNo)] = [] ∧ WalksApart s) ∧
    (let s := tx2 .party (fun t => { sendingTx t with opening := [9, 8] })
       (updEntry 7 (fun e => { e with cancelPending := true }) (active7 up))
     SendsHand s ∧ WalksApart s ∧ s.lines[(2 : LineNo)].tx.state = .sending ∧ s.lines[(2 : LineNo)].tx.opening ≠ [] ∧
       s.lines[(2 : LineNo)].tx.distantBreak = false ∧ s.du.entries[hand7.number].cancelPending = true) ∧
    (let s := tx2 .party (fun t => { sendingTx t with state := .calling, callPos := some 1 }) (active7 up)
     SendsHand s ∧ s.lines[(2 : LineNo)].tx.state = .calling ∧ s.lines[(2 : LineNo)].tx.opening = [] ∧
       s.lines[(2 : LineNo)].tx.callPos = some 1 ∧ hand7.callSet[1 - 1]? = some ⟨4, 37, true, false⟩ ∧
       s.lines[(2 : LineNo)].tx.breakInPending = false ∧ s.lines[(2 : LineNo)].active.type = .party ∧
       s.du.entries[hand7.number].cancelPending = false) ∧
    (let s := tx2 .party (fun t => { sendingTx t with readPos := 28, effLen := 29, breakInPending := true }) (active7 up)
     SendsHand s ∧ s.lines[(2 : LineNo)].tx.state = .sending ∧ s.lines[(2 : LineNo)].tx.breakInPending = true ∧
       s.lines[(2 : LineNo)].tx.readPos < s.lines[(2 : LineNo)].tx.effLen ∧ s.du.rewrites = [] ∧
       s.lines[(2 : LineNo)].active.type = .party ∧ s.du.entries[hand7.number].cancelPending = false) ∧
    (let s := distantBreak 1
     SendsHand s ∧ s.lines[(2 : LineNo)].tx.opening ≠ [] ∧ s.lines[(2 : LineNo)].tx.distantBreak = true ∧
       s.lines[(2 : LineNo)].active.type = .pointToPoint ∧ s.lines[(2 : LineNo)].recovery = true ∧
       s.du.entries[hand7.number].attempts < 2 ∧ s.du.rewrites = [] ∧ s.du.entries[hand7.number].cancelPending = false) ∧
    (let s := distantBreak 2
     SendsHand s ∧ s.lines[(2 : LineNo)].tx.opening ≠ [] ∧ s.lines[(2 : LineNo)].tx.distantBreak = true ∧
       s.lines[(2 : LineNo)].active.type = .pointToPoint ∧ s.lines[(2 : LineNo)].recovery = true ∧
       2 ≤ s.du.entries[hand7.number].attempts ∧ WalksApart s ∧ s.du.entries[hand7.number].cancelPending = false) := by
  refine ⟨?_, ?_, ?_, ?_, ?_, ?_, ?_⟩ <;> decide +kernel

/-- Delivery 7, the last of its message but one, is at a boundary of line 2 while the Report Unit waits. -/
def leaving (type : LineType) (cancel : Bool) (attempts : Nat) (f : LineUnit → LineUnit) : State :=
  waits .report (line2 type (fun l => f { l with tx := sendingTx l.tx })
    (updEntry 7 (fun e => { e with cancelPending := cancel, attempts := attempts }) (active7 up)))

/-- The conditions common to the boundaries at which it leaves the line. -/
abbrev Leaving (s : State) : Prop :=
  Sends ⟨.frame 3 .oneAndHalf, 40⟩ s ∧ s.lines[(2 : LineNo)].tx.hand = some hand7 ∧
    s.lines[(2 : LineNo)].tx.owed = none ∧ s.du.entries[hand7.number].transit = 1 ∧
    s.du.active[(2 : LineNo)] = some hand7.number ∧ s.du.entries[hand7.number].line = 2 ∧
    s.du.transit[(1 : TransitNo)].outstanding = 1 + 1 ∧ s.port.waiting ≠ []

/-- The frame is the last of the text. -/
abbrev LastFrame (s : State) : Prop :=
  s.lines[(2 : LineNo)].tx.state = .sending ∧ s.lines[(2 : LineNo)].tx.opening = [] ∧
    s.lines[(2 : LineNo)].tx.lenKnown = true ∧ s.lines[(2 : LineNo)].tx.holding = [] ∧
    s.lines[(2 : LineNo)].tx.effLen ≤ s.lines[(2 : LineNo)].tx.readPos

/-- The length of the text is known to be 30, and this much is read. -/
def readTo (pos : Nat) (l : LineUnit) : LineUnit := { l with tx := { l.tx with lenKnown := true, effLen := 30, readPos := pos } }

/-- A break has been heard and stopping is as given. -/
def heard (break_ stopping : Bool) (l : LineUnit) : LineUnit :=
  { l with recovery := break_, tx := { l.tx with distantBreak := break_, stopping := stopping } }

theorem witness_CharacterBoundary_done :
    (∀ cancel : Bool, let s := leaving .pointToPoint cancel 0 (readTo 30)
     Leaving s ∧ LastFrame s ∧ s.lines[(2 : LineNo)].tx.stopping = false ∧ s.du.queues[(2 : LineNo)] = [] ∧
       s.lines[(2 : LineNo)].recovery = false ∧ s.du.entries[hand7.number].cancelPending = cancel) ∧
    (let s := leaving .pointToPoint false 0 (fun l => heard true false (readTo 30 l))
     Leaving s ∧ LastFrame s ∧ s.lines[(2 : LineNo)].tx.stopping = false ∧
       s.lines[(2 : LineNo)].active.type = .pointToPoint ∧ s.lines[(2 : LineNo)].recovery = true) ∧
    (let s := updQueue 2 (fun _ => [9]) (leaving .party false 0 (readTo 30))
     Leaving s ∧ LastFrame s ∧ s.lines[(2 : LineNo)].tx.stopping = false ∧ s.lines[(2 : LineNo)].active.type = .party ∧
       s.lines[(2 : LineNo)].tx.backingOff = false ∧ ∃ d ∈ s.du.queues[(2 : LineNo)], d ≠ hand7.number) ∧
    (let s := leaving .pointToPoint false 0 (fun l => heard false true (readTo 30 l))
     Leaving s ∧ LastFrame s ∧ s.lines[(2 : LineNo)].tx.stopping = true ∧ s.lines[(2 : LineNo)].rx.state = .hunting) := by
  refine ⟨?_, ?_, ?_, ?_⟩ <;> decide +kernel

theorem witness_CharacterBoundary_left :
    (∀ type : Bool, let s := leaving (if type then .party else .pointToPoint) true 0 (readTo 29)
     Leaving s ∧ s.lines[(2 : LineNo)].tx.readPos < s.lines[(2 : LineNo)].tx.effLen ∧
       s.lines[(2 : LineNo)].tx.stopping = false ∧ s.du.entries[hand7.number].cancelPending = true ∧
       s.lines[(2 : LineNo)].tx.distantBreak = false) ∧
    (∀ cancel : Bool, let s := leaving .pointToPoint cancel 2 (fun l => heard true false (readTo 29 l))
     Leaving s ∧ s.lines[(2 : LineNo)].tx.readPos < s.lines[(2 : LineNo)].tx.effLen ∧
       s.lines[(2 : LineNo)].tx.stopping = false ∧ s.du.entries[hand7.number].cancelPending = cancel ∧
       s.lines[(2 : LineNo)].active.type = .pointToPoint ∧ s.lines[(2 : LineNo)].tx.distantBreak = true ∧
       s.lines[(2 : LineNo)].recovery = true ∧ 2 ≤ s.du.entries[hand7.number].attempts ∧ s.du.rewrites = []) ∧
    (∀ cancel : Bool, let s := leaving .party cancel 0 (fun l => heard false true (readTo 29 l))
     Leaving s ∧ s.lines[(2 : LineNo)].tx.readPos < s.lines[(2 : LineNo)].tx.effLen ∧
       s.lines[(2 : LineNo)].tx.stopping = true ∧ s.du.entries[hand7.number].cancelPending = cancel ∧
       s.lines[(2 : LineNo)].rx.state = .hunting ∧ s.du.rewrites = []) := by
  refine ⟨?_, ?_, ?_⟩ <;> decide +kernel

theorem witness_CharacterBoundary_call :
    (let s := tx2 .party (fun t => { sendingTx t with
       state := .calling, callPos := some 1,
       hand := some { hand2 with callSet := [⟨5, 38, false, false⟩, ⟨4, 37, true, false⟩] } })
       (updEntry 7 (fun e => { e with callSet := [⟨5, 38, false, false⟩, ⟨4, 37, true, false⟩] }) (active7 up))
     Sends ⟨.frame 3 .oneAndHalf, 40⟩ s ∧ s.lines[(2 : LineNo)].tx.state = .calling ∧
       s.lines[(2 : LineNo)].tx.opening = [] ∧ s.lines[(2 : LineNo)].tx.callPos = some 1 ∧
       s.lines[(2 : LineNo)].tx.breakInPending = false ∧ s.lines[(2 : LineNo)].active.type = .party ∧
       s.du.entries[(7 : DeliveryNo)].cancelPending = false ∧
       s.du.entries[(7 : DeliveryNo)].callSet = [] ++ ⟨5, 38, false, false⟩ :: [⟨4, 37, true, false⟩]) ∧
    (let s := tx2 .party (fun t => { sendingTx t with state := .calling, callPos := some 2, hand := some hand2 })
       (updEntry 7 (fun e => { e with callSet := [⟨4, 37, true, true⟩, ⟨5, 38, false, false⟩] }) (active7 up))
     Sends ⟨.frame 3 .oneAndHalf, 40⟩ s ∧ s.lines[(2 : LineNo)].tx.state = .calling ∧
       s.lines[(2 : LineNo)].tx.opening = [] ∧ s.lines[(2 : LineNo)].tx.callPos = some 2 ∧
       hand2.callSet[2 - 1]? = some ⟨5, 38, false, false⟩ ∧ hand2.callSet.length ≤ 2 ∧
       s.du.entries[(7 : DeliveryNo)].callSet = [⟨4, 37, true, true⟩] ++ ⟨5, 38, false, false⟩ :: [] ∧
       s.lines[(2 : LineNo)].tx.out = [] ∧ Room 2 s) := by
  refine ⟨?_, ?_⟩ <;> decide +kernel

theorem witness_TransmitReads :
    (let s := readsText .txText 5 (fun t => { t with stale := 1 })
     Quiet s ∧ Serving (readReq 97 (.transmitter 2) .txText) s ∧ 0 < s.lines[(2 : LineNo)].tx.stale) ∧
    (let s := readsText .txHead 5000 (fun t => { t with holding := [64] })
     WantsRead .txHead s ∧ s.lines[(2 : LineNo)].tx.holding = [64]) ∧
    (let s := readsText .txText 0x0540 (fun t => { t with effLen := 20, readPos := 18, lenKnown := true })
     WantsRead .txText s ∧ s.lines[(2 : LineNo)].tx.holding = [] ∧
       s.lines[(2 : LineNo)].tx.readPos + 1 < s.lines[(2 : LineNo)].tx.effLen ∧ (s.store.readWord 97).extractLsb' 0 8 = 64) ∧
    (let s := readsText .txLink 16 (fun t => { t with effLen := 90, readPos := 32, lenKnown := true })
     WantsRead .txLink s ∧ s.lines[(2 : LineNo)].tx.holding = [] ∧
       s.office.held.poolBlocks ≤ (s.store.readWord 97).toNat) ∧
    (let s := readsText .txLink 15 (fun t => { t with effLen := 90, readPos := 32, lenKnown := true })
     WantsRead .txLink s ∧ s.lines[(2 : LineNo)].tx.holding = [] ∧
       (s.store.readWord 97).toNat < s.office.held.poolBlocks ∧ s.lines[(2 : LineNo)].tx.state = .sending ∧
       s.lines[(2 : LineNo)].tx.out = [] ∧ s.lines[(2 : LineNo)].tx.live = 1 ∧ s.lines[(2 : LineNo)].tx.lenKnown = true ∧
       s.lines[(2 : LineNo)].tx.readPos < s.lines[(2 : LineNo)].tx.effLen ∧
       chainIndex s.lines[(2 : LineNo)].tx.readPos = s.lines[(2 : LineNo)].tx.curIndex + 1 ∧ Room 1 s) := by decide +kernel

theorem witness_GuardAndBackoff :
    (let s := tx2 .party (fun t => { t with state := .guarding, guardCount := some 191 }) up
     FreeTx s ∧ s.lines[(2 : LineNo)].active.type = .party ∧ s.lines[(2 : LineNo)].tx.state = .guarding ∧
       s.du.queues[(2 : LineNo)] = []) ∧
    (let s := tx2 .party (fun t => { t with state := .guarding, guardCount := some 191 })
       (updQueue 2 (fun _ => [7]) (with7 .queued up))
     FreeTx s ∧ s.lines[(2 : LineNo)].active.type = .party ∧ s.lines[(2 : LineNo)].tx.state = .guarding ∧
       s.du.queues[(2 : LineNo)] = [7] ∧ s.lines[(2 : LineNo)].tx.stopping = false ∧
       s.lines[(2 : LineNo)].tx.backingOff = false ∧ s.office.holdLatch = false ∧ s.du.active[(2 : LineNo)] = none ∧
       s.du.entries[(7 : DeliveryNo)].callSet = ⟨4, 37, true, false⟩ :: []) ∧
    (let s := tx2 .party (fun t => { t with backingOff := true }) (updQueue 2 (fun _ => [7]) (with7 .queued up))
     FreeTx s ∧ s.lines[(2 : LineNo)].tx.backingOff = true ∧ s.lines[(2 : LineNo)].tx.backoffVoid = false ∧
       s.lines[(2 : LineNo)].tx.state = .idle ∧ s.du.queues[(2 : LineNo)] ≠ []) ∧
    (∀ void : Bool, let s := tx2 .party (fun t => { t with backingOff := true, backoffVoid := void }) up
     FreeTx s ∧ s.lines[(2 : LineNo)].tx.backingOff = true ∧ s.lines[(2 : LineNo)].tx.backoffVoid = void ∧
       s.du.queues[(2 : LineNo)] = []) := by decide +kernel

/-- R55, R150: line 2 waits 3 character times anew after a collision that meets the end of the older backoff; an older
expiry taken after the collision ends nothing. -/
theorem test_collision_restarts_backoff :
    let s := after (.collision 2) (tx2 .party (fun t =>
      { t with state := .preamble, sending := some ⟨.preamble, 5⟩, backingOff := true, backoffCount := some 192 }) up)
    let t := after (.backoffExpiry 2) s
    (s.lines[2].tx.backingOff, s.lines[2].tx.backoffCount) = (true, some 0) ∧
    (t.lines[2].tx.backingOff, t.lines[2].tx.backoffCount) = (true, some 0) ∧
    (after (.backoffExpiry 2) t).lines[2].tx.backingOff = false := by decide +kernel

/-- Of the two members of delivery 7 one has answered, and the last is waited for. -/
def partAnswered (attempts : Nat) (s : State) : State :=
  updEntry 7 (fun e => { e with attempts := attempts, callSet := [⟨4, 37, true, true⟩, ⟨5, 38, true, false⟩] })
    (tx2 .party (fun t => { answerTx t with
      hand := some { hand7 with callSet := [⟨4, 37, true, false⟩, ⟨5, 38, true, false⟩] }, callPos := some 2 }) (active7 s))

/-- The conditions of the end of that call set. -/
abbrev PartAnswered (attempts : Nat) (s : State) : Prop :=
  FreeTx s ∧ s.lines[(2 : LineNo)].tx.state = .answerWait ∧
    s.lines[(2 : LineNo)].tx.hand = some { hand7 with callSet := [⟨4, 37, true, false⟩, ⟨5, 38, true, false⟩] } ∧
    s.lines[(2 : LineNo)].tx.callPos = some 2 ∧ s.du.entries[(7 : DeliveryNo)].state = .active ∧
    s.du.entries[(7 : DeliveryNo)].attempts = attempts ∧ s.du.rewrites = [] ∧ s.lines[(2 : LineNo)].tx.out = [] ∧
    s.du.entries[(7 : DeliveryNo)].callSet.filter (fun m => !m.answered) = [⟨5, 38, true, false⟩] ∧
    (∃ m ∈ s.du.entries[(7 : DeliveryNo)].callSet, m.answered = true)

theorem witness_AnswerTimeout :
    (let s := tx2 .party answerTx (active7 up)
     FreeTx s ∧ s.lines[(2 : LineNo)].tx.state = .answerWait ∧ s.lines[(2 : LineNo)].tx.hand = some hand7 ∧
       s.lines[(2 : LineNo)].tx.callPos = some 1 ∧ hand7.callSet.length ≤ 1 ∧ s.du.entries[hand7.number].callSet ≠ [] ∧
       (∀ m ∈ s.du.entries[hand7.number].callSet, m.answered = false) ∧ s.du.entries[hand7.number].cancelPending = false ∧
       s.du.entries[hand7.number].attempts < 2 ∧ s.du.entries[hand7.number].line = 2 ∧
       s.du.active[(2 : LineNo)] = some hand7.number) ∧
    (let h := { hand7 with callSet := [⟨4, 37, true, false⟩, ⟨5, 38, true, false⟩] }
     let s := tx2 .party (fun t => { answerTx t with hand := some h }) (active7 up)
     FreeTx s ∧ s.lines[(2 : LineNo)].tx.state = .answerWait ∧ s.lines[(2 : LineNo)].tx.hand = some h ∧
       s.lines[(2 : LineNo)].tx.callPos = some 1 ∧ h.callSet[1]? = some ⟨5, 38, true, false⟩) ∧
    (PartAnswered 1 (partAnswered 1 up) ∧ (partAnswered 1 up).du.entries[(0 : DeliveryNo)].state = .free ∧
      Room 7 (partAnswered 1 up) ∧ RingRoom 1 (partAnswered 1 up)) ∧
    (PartAnswered 2 (partAnswered 2 up) ∧ Room 6 (partAnswered 2 up)) ∧
    (let s := partAnswered 1 { up with du := { up.du with entries := Vector.replicate 256 (delivery .queued) } }
     PartAnswered 1 s ∧ (∀ k : DeliveryNo, s.du.entries[k].state ≠ .free) ∧ Room 6 s ∧ RingRoom 1 s) := by
  refine ⟨?_, ?_, ?_, ?_, ?_⟩ <;> decide +kernel

theorem witness_Collision :
    (∀ k ∈ [191, 192], let s := tx2 .party (fun t =>
       { t with state := .preamble, sending := some ⟨.preamble, 5⟩, backingOff := true, backoffCount := some k }) up
     Quiet s ∧ s.lines[(2 : LineNo)].active.type = .party ∧ s.lines[(2 : LineNo)].tx.sending ≠ none ∧
       s.lines[(2 : LineNo)].settingsPending = false ∧ s.lines[(2 : LineNo)].tx.stopping = false ∧
       s.lines[(2 : LineNo)].tx.state = .preamble ∧ s.lines[(2 : LineNo)].tx.hand = none) ∧
    (let s := tx2 .party sendingTx (active7 up)
     Quiet s ∧ s.lines[(2 : LineNo)].tx.state = .sending ∧ s.lines[(2 : LineNo)].tx.hand = some hand7 ∧
       s.du.entries[hand7.number].cancelPending = false ∧ s.du.entries[hand7.number].line = 2 ∧
       s.du.active[(2 : LineNo)] = some hand7.number ∧ s.du.rewrites = []) := by decide +kernel

theorem witness_HoldLatchAndResume :
    (Quiet (latched up) ∧ (latched up).office.holdLatch = true) ∧
    (Quiet (officeIn .poolBuild) ∧ (officeIn .poolBuild).office.holdLatch = false ∧ running (officeIn .poolBuild) = false) ∧
    (let s := { up with pins := { up.pins with hold := true } }
     Accessible s ∧ s.pins.hold = true) ∧
    (Accessible up ∧ up.office.holdLatch = false) ∧
    (Accessible (latched up) ∧ running (latched up) = true ∧ ∀ n : LineNo, (latched up).lines[n].tx.state ≠ .held) ∧
    (let s := latched (tx2 .party (fun t => { t with state := .held }) up)
     Accessible s ∧ running s = true ∧ s.office.holdLatch = true ∧ s.lines[(2 : LineNo)].tx.state = .held) := by
  decide +kernel

theorem witness_HoldStopsEveryLine :
    let s := tx2 .party sendingTx (active7 up)
    s.resetIn = false ∧ running s = true ∧ s.office.holdLatch = false ∧
    ∀ n : LineNo, s.lines[n].tx.state = .off → s.lines[n].tx.hand = none ∧ s.lines[n].tx.sending = none ∧
      s.lines[n].tx.owed = none ∧ s.lines[n].tx.send = true := by decide +kernel

theorem witness_HoldStopsEveryLine_reports :
    (∀ stopping : Bool, let s := tx2 .party (fun t => { t with stopping := stopping }) up
     Quiet s ∧ running s = true ∧ s.office.holdLatch = false ∧ (∀ n : LineNo, s.lines[n].tx.hand = none) ∧
       ∀ n : LineNo, s.lines[n].tx.stopping = true →
         s.lines[n].rx.state = .hunting ∧ s.lines[n].settingsPending = false) ∧
    (let s := tx2 .party sendingTx (active7 up)
     Quiet s ∧ s.lines[(2 : LineNo)].tx.state ≠ .off ∧ s.lines[(2 : LineNo)].tx.hand = some hand7 ∧
       (∀ m : LineNo, m ≠ 2 → s.lines[m].tx.hand = none) ∧ s.du.entries[hand7.number].line = 2 ∧
       s.du.active[(2 : LineNo)] = some hand7.number ∧ s.du.entries[hand7.number].cancelPending = false ∧
       s.du.rewrites = [] ∧ Room 8 s ∧ RingRoom 2 s) ∧
    (let s := stalled (tx2 .party sendingTx (updEntry 7 (fun e => { e with cancelPending := true }) (active7 up)))
     Quiet s ∧ s.lines[(2 : LineNo)].tx.hand = some hand7 ∧ s.du.entries[hand7.number].cancelPending = true ∧
       Issuer.report ∈ s.port.waiting ∧
       s.du.transit[s.du.entries[hand7.number].transit].outstanding = 1 + 1) := by
  refine ⟨?_, ?_, ?_⟩ <;> decide +kernel

/-- HOLD LATCHED, and a report of delivery 7. -/
def latchOffers (kind : ReportKind) (attached : Bool) : List Offer :=
  [⟨plainReport .holdLatched 31 65535 0 1000, false, none⟩, ⟨plainReport kind 2 7 6 1000, attached, none⟩]

/-- R167: DELIVERY INTERRUPTED may reach the Report Unit before HOLD LATCHED or after it; a report that waits on a head
rewrite comes after it; R187: the reports of one owner keep their order. -/
theorem test_offers_order :
    keepsOrder (latchOffers .deliveryInterrupted false) [0, 1] = true ∧
    keepsOrder (latchOffers .deliveryInterrupted false) [1, 0] = true ∧
    keepsOrder (latchOffers .deliveryCancelled true) [0, 1] = true ∧
    keepsOrder (latchOffers .deliveryCancelled true) [1, 0] = false ∧
    keepsOrder [⟨plainReport .deliveryInterrupted 2 7 3 1000, false, none⟩,
      ⟨plainReport .deliveryFailed 2 7 511 1000, true, some 1⟩] [1, 0] = false := by decide +kernel

/-- R177: the reports of a rewrite go before its walk, and with them at most what stands before them. -/
theorem test_offersUntil :
    let done : Offer := ⟨plainReport .deliveryDone 2 7 1 1000, true, some 1⟩
    let fault : Offer := ⟨plainReport .lineFault 5 65535 0 1000, false, none⟩
    offersUntil (fun o => o.ending == some 1) [fault, done] = 2 ∧ offersUntil (fun o => o.ending == some 1) [done, fault] = 1 ∧
    offersUntil (fun o => o.ending == some 2) [done, fault] = 0 := by decide +kernel

theorem witness_ReportUnit_offers :
    (let os := latchOffers .deliveryCancelled true
     ∃ x y, os[0]? = some x ∧ os[1]? = some y ∧ x.record.kind = .holdLatched ∧ y.attached = true) ∧
    (let os : List Offer :=
       [⟨plainReport .deliveryInterrupted 2 7 3 1000, false, none⟩,
        ⟨plainReport .deliveryFailed 2 7 511 1000, true, some 1⟩]
     ∀ x ∈ os, ∀ y ∈ os, x.record.owner = y.record.owner) :=
  ⟨⟨_, _, rfl, rfl, rfl, rfl⟩, by decide⟩

theorem witness_ReportUnit :
    (heldCount up < ringSize up ∧ up.report.records = [] ∧ up.report.wordNext = 0 ∧ Room 4 up) ∧
    (let s := { up with report := { up.report with fill := 16 } }
     ringSize s ≤ heldCount s) ∧
    (let r := wordReq 4099 5 .report (.reportWord true)
     Quiet (serving r up) ∧ Serving r (serving r up)) := by decide +kernel

theorem witness_ReportReadIndex :
    let s := { up with report := { up.report with read := 100, write := 116, fill := 116 } }
    Accessible s ∧ running s = true ∧
    ((s.report.write - 100).toNat + (s.report.fill - s.report.write).toNat ≤ 16 * 2 ^ s.office.held.ringCode) ∧
    (16 * 2 ^ s.office.held.ringCode < (s.report.write - 120).toNat + (s.report.fill - s.report.write).toNat) := by
  decide +kernel

theorem witness_StatusWords :
    up.resetIn = false ∧
    (let s := tx2 .party sendingTx (updEntry 7 (fun e => { e with cancelPending := true }) (active7 up))
     ∃ h, s.lines[(2 : LineNo)].tx.hand = some h ∧ s.du.entries[h.number].cancelPending = true) :=
  ⟨rfl, hand7, rfl, by decide +kernel⟩

/-- Tables 12-3 and 1-3: a read of each live word, at the lowest and the highest line. -/
theorem witness_StatusWords_live :
    (∀ w : Bool, let s := if w then up else officeIn .poolBuild
     s.resetIn = false ∧ running s = w) ∧
    (let s := updLine 23 (fun l => { l with overrun := 255, framing := 7 })
       (updQueue 23 (fun _ => [7, 9]) (updLine 0 (fun _ => idleLine .pointToPoint) (active7 { up with
         office := { up.office with clock := 65536 * 3 + 5 }, report := { up.report with write := 9 } })))
     [33, 35, 36, 37, 38, 39, 64, 65, 69, 111, 192, 215].map (fun off => (processorRead (pageAddr s off) s).path.pdOut.toNat) =
       [16, 5, 3, 9, 255, 127, 2 * 32 + 512, 255 * 256, 7 * 256, 255 * 256 + 2, 0, 255 * 256 + 7]) := by
  refine ⟨?_, ?_⟩ <;> decide +kernel

end Sys2Proof.Machine.Tests
end

/-! SUPPORT. The Store Port's arbiter and the end of an event: what they change, and that the requests placed with the Store
Port and the access with it are the same before and after (R1, R8, R10). -/

namespace Sys2Proof.Machine

/-! ## The arbiter (R10) -/

theorem startCycle_taken {s : State} (h : s.port.cycle ≠ none) : startCycle s = s := by
  unfold startCycle
  split
  · rfl
  · next hc => exact absurd hc h

theorem startCycle_noWork {s : State} (hf : s.port.fwd = none) (hq : s.port.queue = []) : startCycle s = s := by
  unfold startCycle
  rw [hf, hq]
  split <;> rfl

theorem startCycle_forwarded {s : State} {a : Access} (hc : s.port.cycle = none) (hf : s.port.fwd = some a)
    (hturn : s.port.queue = [] ∨ s.port.lastServed = .internal) :
    startCycle s =
      { s with port := { s.port with fwd := none, cycle := some (.forwarded a), lastServed := .processor } } := by
  unfold startCycle
  rw [hc, hf]
  cases hq : s.port.queue with
  | nil => simp [updPort, hq]
  | cons r rest =>
    have hl : s.port.lastServed = .internal := hturn.resolve_left (by simp [hq])
    simp [updPort, hl, hq]

theorem startCycle_internal {s : State} {r : Req} {rest : List Req} (hc : s.port.cycle = none)
    (hq : s.port.queue = r :: rest) (hturn : s.port.fwd = none ∨ s.port.lastServed = .processor) :
    startCycle s =
      { s with port := { s.port with queue := rest, cycle := some (.internal r), lastServed := .internal } } := by
  unfold startCycle
  rw [hc, hq]
  cases hf : s.port.fwd with
  | none => simp [updPort, hf]
  | some a =>
    have hl : s.port.lastServed = .processor := hturn.resolve_left (by simp [hf])
    simp [updPort, hl, hf]

/-- What the arbiter can do: nothing, for the bus is taken or no work waits; or begin the cycle of the forwarded access, or
that of the request at the head of the queue. -/
theorem startCycle_cases (s : State) :
    (startCycle s = s ∧ (s.port.cycle ≠ none ∨ (s.port.fwd = none ∧ s.port.queue = []))) ∨
    (∃ a, s.port.cycle = none ∧ s.port.fwd = some a ∧ startCycle s =
      { s with port := { s.port with fwd := none, cycle := some (.forwarded a), lastServed := .processor } }) ∨
    (∃ r rest, s.port.cycle = none ∧ s.port.queue = r :: rest ∧ startCycle s =
      { s with port := { s.port with queue := rest, cycle := some (.internal r), lastServed := .internal } }) := by
  by_cases hc : s.port.cycle = none
  · cases hq : s.port.queue with
    | nil =>
      cases hf : s.port.fwd with
      | none => exact .inl ⟨startCycle_noWork hf hq, .inr ⟨rfl, rfl⟩⟩
      | some a => exact .inr (.inl ⟨a, hc, rfl, by simpa [hq] using startCycle_forwarded hc hf (.inl hq)⟩)
    | cons r rest =>
      cases hf : s.port.fwd with
      | none => exact .inr (.inr ⟨r, rest, hc, rfl, by simpa [hf] using startCycle_internal hc hq (.inl hf)⟩)
      | some a =>
        cases hl : s.port.lastServed with
        | internal => exact .inr (.inl ⟨a, hc, rfl, by simpa [hq] using startCycle_forwarded hc hf (.inr hl)⟩)
        | processor => exact .inr (.inr ⟨r, rest, hc, rfl, by simpa [hf] using startCycle_internal hc hq (.inr hl)⟩)
  · exact .inl ⟨startCycle_taken hc, .inl hc⟩

/-- The arbiter changes nothing but the Store Port. -/
theorem startCycle_eq (s : State) : startCycle s = { s with port := (startCycle s).port } := by
  obtain ⟨h, -⟩ | ⟨a, -, -, h⟩ | ⟨r, rest, -, -, h⟩ := startCycle_cases s <;> rw [h]

/-- The bus is taken or no work waits, as the arbiter leaves it (R10). -/
abbrev BusServed (s : State) : Prop := s.port.cycle ≠ none ∨ (s.port.fwd = none ∧ s.port.queue = [])

theorem busServed_startCycle (s : State) : BusServed (startCycle s) := by
  obtain ⟨h, hs⟩ | ⟨a, -, -, h⟩ | ⟨r, rest, -, -, h⟩ := startCycle_cases s <;> rw [h]
  · exact hs
  · exact .inl (by simp)
  · exact .inl (by simp)

/-- A request that goes from the queue into its cycle is still not completed. -/
@[simp] theorem requests_startCycle (s : State) : requests (startCycle s) = requests s := by
  obtain ⟨h, -⟩ | ⟨a, hc, -, h⟩ | ⟨r, rest, hc, hq, h⟩ := startCycle_cases s <;> rw [h]
  · simp [requests, hc]
  · simp [requests, hc, hq]

/-- An access that goes into its cycle is still with the Store Port. -/
@[simp] theorem forwards_startCycle (a : Access) (s : State) : Forwards a (startCycle s) ↔ Forwards a s := by
  obtain ⟨h, -⟩ | ⟨b, hc, hf, h⟩ | ⟨r, rest, hc, -, h⟩ := startCycle_cases s <;> rw [h]
  · simp [Forwards, hc, hf]
  · simp [Forwards, hc]

@[simp] theorem startCycle_waiting (s : State) : (startCycle s).port.waiting = s.port.waiting := by
  obtain ⟨h, -⟩ | ⟨b, -, -, h⟩ | ⟨r, rest, -, -, h⟩ := startCycle_cases s <;> rw [h]

theorem startCycle_queue_le (s : State) : (startCycle s).port.queue.length ≤ s.port.queue.length := by
  obtain ⟨h, -⟩ | ⟨b, -, -, h⟩ | ⟨r, rest, -, hq, h⟩ := startCycle_cases s <;> rw [h]
  simp [hq]

/-! ## Placement (R8) -/

theorem place_eq (r : Req) (s : State) : place r s = { s with port := (place r s).port } :=
  startCycle_eq _

@[simp] theorem requests_place (r : Req) (s : State) : requests (place r s) = requests s ++ [r] :=
  (requests_startCycle _).trans (List.append_assoc ..).symm

@[simp] theorem forwards_place (a : Access) (r : Req) (s : State) : Forwards a (place r s) ↔ Forwards a s :=
  forwards_startCycle a _

@[simp] theorem place_waiting (r : Req) (s : State) : (place r s).port.waiting = s.port.waiting := startCycle_waiting _

theorem place_queue_le (r : Req) (s : State) : (place r s).port.queue.length ≤ s.port.queue.length + 1 :=
  (startCycle_queue_le _).trans (by simp)

/-! ## PWAIT (R1, R2, R18) -/

/-- PWAIT is released exactly when reset holds no access and none is with the Store Port. -/
theorem pwait_eq_false_iff (s : State) : pwait s = false ↔ s.path.held = none ∧ ∀ a, ¬ Forwards a s := by
  unfold pwait Forwards
  cases s.port.fwd with
  | some a => exact iff_of_false (by simp) (fun h => h.2 a (.inl rfl))
  | none => rcases s.port.cycle with _ | _ | _ <;> simp

/-! ## The end of an event -/

@[simp] theorem requests_eventEnd (s : State) : requests (eventEnd s) = requests s := requests_startCycle s

@[simp] theorem forwards_eventEnd (a : Access) (s : State) : Forwards a (eventEnd s) ↔ Forwards a s :=
  forwards_startCycle a s

/-- Beside the Store Port the end of an event changes ATTN alone. -/
theorem eventEnd_eq (s : State) :
    eventEnd s = { s with port := (eventEnd s).port, report := { s.report with attn := (eventEnd s).report.attn } } := by
  unfold eventEnd updateAttn
  rw [startCycle_eq]
  rfl

/-- A freed bus that takes waiting work does not change what the processor waits for. -/
@[simp] theorem pwait_eventEnd (s : State) : pwait (eventEnd s) = pwait s := by
  have hpath : (eventEnd s).path = s.path := by rw [eventEnd_eq]
  apply Bool.eq_iff_iff.2
  rw [← not_iff_not]
  simp only [Bool.not_eq_true, pwait_eq_false_iff, hpath, forwards_eventEnd]

/-- Every event out of reset ends with no work waiting at a free bus (R10). -/
theorem busServed_settle {s : State} (h : s.resetIn = false) : BusServed (settle s) := by
  unfold settle
  rw [if_neg (by simp [h])]
  exact busServed_startCycle _

end Sys2Proof.Machine

/-! SUPPORT. What every command leaves of the office's configuration: the values held from the setup and the strap sample
(R3, R13). The bodies of the commands that Laws/Frame.lean does not reach have their lemmas here. -/

namespace Sys2Proof.Machine

/-- The setup values held since the acceptance and the strap sample are the same in both states. -/
structure SetupKept (s t : State) : Prop where
  held : t.office.held = s.office.held
  straps : t.path.straps = s.path.straps

variable {s u : State}

theorem SetupKept.refl (s : State) : SetupKept s s := ⟨rfl, rfl⟩

theorem SetupKept.trans {t : State} (h : SetupKept s t) (k : SetupKept t u) : SetupKept s u :=
  ⟨k.held.trans h.held, k.straps.trans h.straps⟩

/-- An operation inside an event touches neither. -/
theorem Within.setupKept (h : Within s u) : SetupKept s u :=
  ⟨(congrArg OfficeControl.held h.office : _), congrArg PathUnit.straps h.path⟩

theorem SetupKept.within {t : State} (h : SetupKept s u) (k : Within u t) : SetupKept s t := h.trans k.setupKept

/-! ## The bodies of the line events -/

theorem within_endSending (h : Within s u) (n : LineNo) : Within s (endSending n u) := within_updTx h _ _

theorem within_beginBreakIn (h : Within s u) (n : LineNo) : Within s (beginBreakIn n u) := by
  unfold beginBreakIn; split
  · exact within_beginNext h _
  · exact h

theorem within_beginCall (h : Within s u) (n : LineNo) : Within s (beginCall n u) := by
  unfold beginCall; split
  · exact within_beginNext h _
  · exact h

theorem within_callBoundary (h : Within s u) (n : LineNo) (k : Hand) : Within s (callBoundary n k u) := by
  unfold callBoundary
  refine within_beginCall ?_ n
  split
  · exact within_endCall h _ _ _
  · exact h

theorem within_boundary (h : Within s u) (n : LineNo) : Within s (boundary n u) := by
  have he := within_endSending h n
  unfold boundary; dsimp only
  split
  · split
    · exact within_disableTakesEffect he _
    · exact he
  · split
    · exact within_completeDelivery he _ _
    · split
      · exact within_disableTakesEffect he _
      · split
        · next e => exact within_beginBreakIn (within_deferredRequest he e) _
        · split
          · exact within_callBoundary he _ _
          · exact within_beginNext he _

theorem within_endPreamble (h : Within s u) (n : LineNo) : Within s (endPreamble n u) :=
  within_enterIdle (within_endSending h n) n

theorem within_endBreakIn (h : Within s u) (n : LineNo) : Within s (endBreakIn n u) := by
  have he := within_endSending h n
  unfold endBreakIn; dsimp only
  split
  · exact within_disableTakesEffect he _
  · split
    · split
      · exact within_enterPause (within_updTx he _ _) _
      · exact within_beginCall (within_selectOr (within_updTx he _ _) _ _ (fun h => within_enterIdle h n)) _
    · exact within_enterIdle he _

theorem within_headReadDone (h : Within s u) (n : LineNo) (v : Word) : Within s (headReadDone n v u) :=
  within_completeIfEnded (within_advanceText (within_updTx h _ _) _) _

theorem within_textReadDone (h : Within s u) (n : LineNo) (v : Word) : Within s (textReadDone n v u) :=
  within_completeIfEnded (within_advanceText (within_updTx h _ _) _) _

theorem within_textLinkDone (h : Within s u) (n : LineNo) (v : Word) : Within s (textLinkDone n v u) :=
  within_completeIfEnded (within_advanceText (within_updTx h _ _) _) _

theorem within_expireGuard (h : Within s u) (n : LineNo) : Within s (expireGuard n u) :=
  within_selectOr (within_updTx h _ _) _ _ (fun h => within_enterIdle h n)

theorem within_expireAnswer (h : Within s u) (n : LineNo) : Within s (expireAnswer n u) := by
  unfold expireAnswer; dsimp only
  split
  · exact within_nextMember (within_updTx h _ _) _ _ _
  · exact within_updTx h _ _

theorem within_collide (h : Within s u) (n : LineNo) : Within s (collide n u) := by
  have hc := within_updTx (within_dropHand (within_giveBackHand (within_abandonSending h n) n 4) n) n
    (fun t => { t with owed := none, breakInPending := false })
  unfold collide; dsimp only
  split
  · exact within_disableTakesEffect hc _
  · exact within_enterIdle (within_updTx hc _ _) _

theorem within_expireBackoff (h : Within s u) (n : LineNo) : Within s (expireBackoff n u) := by
  unfold expireBackoff; dsimp only
  split
  · exact within_updTx h _ _
  · split
    · exact within_tellQueue (within_updTx h _ _) _
    · exact within_updTx h _ _

theorem within_detectBreak (h : Within s u) (n : LineNo) : Within s (detectBreak n u) :=
  within_checkIdlePoint (within_breakTransmitter (within_breakReceiver
    (within_updLine h _ _ (by intro _; exact Nat.le_refl _)) _) _) _

theorem within_openLoop (h : Within s u) (n : LineNo) : Within s (openLoop n u) := by
  have hr := within_updLine h n (spaceSample 4096) (by intro _; exact Nat.le_refl _)
  unfold openLoop; dsimp only
  split
  · exact hr
  · exact within_offerReport (within_updLine hr _ _ (by intro _; exact Nat.le_refl _)) _

theorem within_restoreLoop (h : Within s u) (n : LineNo) : Within s (restoreLoop n u) := by
  have hr := within_offerReport (within_updLine h n (fun l => { l with faulted := false })
    (by intro _; exact Nat.le_refl _)) (record u .lineRestored n.val Config.none16 0)
  unfold restoreLoop; dsimp only
  split
  · exact within_idleOccasion hr _
  · exact hr

theorem within_endRecovery (h : Within s u) (n : LineNo) : Within s (endRecovery n u) := by
  have hr := within_updLine h n (fun l => { l with recovery := false }) (by intro _; exact Nat.le_refl _)
  unfold endRecovery; dsimp only
  split
  · exact within_enterIdle hr _
  · exact hr

theorem within_steadyMark (h : Within s u) (n : LineNo) : Within s (steadyMark n u) := by
  have hm := within_updLine h n (fun l =>
    { markSample 64 l with inBreak := false, sampler := { l.sampler with state := .waitStart } })
    (by intro _; exact Nat.le_refl _)
  unfold steadyMark; dsimp only
  generalize updLine n _ u = v at hm ⊢
  have hf : Within s (if v.lines[n].faulted then restoreLoop n v else v) := by
    split
    · exact within_restoreLoop hm _
    · exact hm
  generalize (if v.lines[n].faulted then restoreLoop n v else v) = w at hf ⊢
  refine within_checkIdlePoint ?_ _
  split
  · exact within_endRecovery hf _
  · exact hf

/-- A completed character may join the receive FIFO; all that follows is an operation inside the event (R62). -/
theorem setupKept_completeCharacter (n : LineNo) (code : Code) (noise framing lastMark : Bool) (s : State) :
    SetupKept s (completeCharacter n code noise framing lastMark s) := by
  refine SetupKept.within ?_ (within_checkIdlePoint (within_answerCheck (.refl _) _ _ _) _)
  exact ⟨rfl, rfl⟩

/-! ## Placement of waiting requests (R9) -/

/-- Office Control's placements change the Store Port and the count of setup reads placed (R14). -/
theorem pumpOffice_eq (k : Nat) (s : State) : ∃ p m, pump .office nextSetupRead setupReadPlaced k s =
    { s with port := p, office := { s.office with setupNext := m } } := by
  induction k generalizing s with
  | zero => exact ⟨_, _, rfl⟩
  | succ k ih =>
    unfold pump
    split
    · exact ⟨_, _, rfl⟩
    · next r _ =>
      split
      · obtain ⟨p, m, h⟩ := ih (setupReadPlaced (place r s))
        refine ⟨p, m, h.trans ?_⟩
        rw [place_eq]
        rfl
      · unfold waitFor
        split <;> exact ⟨_, _, rfl⟩

theorem setupKept_pumpOffice (h : SetupKept s u) : SetupKept s (pumpOffice u) := by
  obtain ⟨p, m, e⟩ := pumpOffice_eq pumpFuel u
  unfold pumpOffice
  rw [e]
  exact h.trans ⟨rfl, rfl⟩

/-- An issuer other than Office Control that gets a place goes on with its work inside the event. -/
theorem within_placeFor (h : Within s u) {i : Issuer} (hi : i ≠ .office)
    (room : u.port.queue.length < Config.queuePlaces) : Within s (placeFor i u) := by
  unfold placeFor
  split
  · split
    · exact within_rxContinue (within_rxPlaced (within_place
        (within_updRx h _ _ (by intro _; exact Nat.le_refl _)) _ room) _ _) _ _
    · exact h
  · split
    · exact within_pumpTx (within_place (within_updTx h _ _) _ room) _
    · exact h
  · split
    · exact within_pumpWalker (within_walkRequestPlaced (within_place h _ room) _)
    · exact h
  · split
    · exact within_pumpDelivery (within_rewritePlaced (within_place h _ room))
    · exact h
  · split
    · exact within_pumpReport (within_reportWordPlaced (within_place h _ room))
    · exact h
  · exact absurd rfl hi

theorem setupKept_placeFor_office (h : SetupKept s u) : SetupKept s (placeFor .office u) := by
  unfold placeFor; dsimp only
  split
  · exact setupKept_pumpOffice (h.trans (by rw [place_eq]; exact ⟨rfl, rfl⟩))
  · exact h

theorem setupKept_placeWaiting (room : s.port.queue.length < Config.queuePlaces) : SetupKept s (placeWaiting s) := by
  unfold placeWaiting
  split
  · exact .refl s
  · next i rest _ =>
    have hw := within_waiting (Within.refl s) rest
    by_cases hi : i = .office
    · subst hi
      exact setupKept_placeFor_office hw.setupKept
    · exact (within_placeFor hw hi room).setupKept

/-! ## The office's commands -/

theorem setupKept_updOffice (h : SetupKept s u) (f : OfficeControl → OfficeControl)
    (hf : (f u.office).held = u.office.held) : SetupKept s (updOffice f u) := ⟨hf.trans h.held, h.straps⟩

theorem setupKept_setClock (h : SetupKept s u) (v : BitVec 32) : SetupKept s (setClock v u) := by
  refine SetupKept.within ?_ (within_releaseWaiting (.refl _))
  exact ⟨h.held, h.straps⟩

theorem setupKept_advanceClock (h : SetupKept s u) : SetupKept s (advanceClock u) := by
  unfold advanceClock
  split
  · exact ⟨h.held, h.straps⟩
  · exact setupKept_setClock h _

theorem setupKept_latchHold (h : SetupKept s u) : SetupKept s (latchHold u) := by
  unfold latchHold; dsimp only
  split
  · refine SetupKept.within ?_ (within_foldl _ (fun n h => within_latchLine h n) _ (.refl _))
    exact ⟨h.held, h.straps⟩
  · exact ⟨h.held, h.straps⟩

theorem setupKept_assertHold (h : SetupKept s u) : SetupKept s (assertHold u) := by
  unfold assertHold; dsimp only
  split
  · exact ⟨h.held, h.straps⟩
  · exact setupKept_latchHold ⟨h.held, h.straps⟩

theorem setupKept_holdLevel (h : SetupKept s u) (level : Bool) : SetupKept s (holdLevel level u) := by
  unfold holdLevel
  split
  · split
    · exact h
    · exact setupKept_assertHold h
  · exact ⟨h.held, h.straps⟩

theorem setupKept_resumeHold (h : SetupKept s u) : SetupKept s (resumeHold u) := by
  unfold resumeHold; dsimp only
  split
  · exact ⟨h.held, h.straps⟩
  · split
    · refine SetupKept.within ?_ (within_onAllLines releaseLine (fun n h => within_releaseLine h n) (.refl _))
      exact ⟨h.held, h.straps⟩
    · exact ⟨h.held, h.straps⟩

theorem setupKept_startWord (h : SetupKept s u) : SetupKept s (startWord u) := by
  unfold startWord
  split
  · exact setupKept_pumpOffice ⟨h.held, h.straps⟩
  · exact h
  · exact h
  · exact ⟨h.held, h.straps⟩

/-! ## Processor accesses -/

theorem within_returnWord (h : Within s u) (v : Word) : Within s (returnWord v u) := by
  unfold returnWord
  split
  · exact within_returnBlock h _
  · exact within_guardViolation h _ _ _

theorem within_readIndex (h : Within s u) (v : Word) : Within s (readIndex v u) := by
  unfold readIndex
  split <;> exact within_updReport h _

theorem setupKept_commitStations (h : SetupKept s u) : SetupKept s (commitStations u) := by
  unfold commitStations
  split <;> exact ⟨h.held, h.straps⟩

theorem setupKept_setLow (h : SetupKept s u) (v : Word) : SetupKept s (setLow v u) := by
  unfold setLow
  exact setupKept_setClock (setupKept_updOffice h _ rfl) _

theorem setupKept_snoopRunning (h : SetupKept s u) (off : Nat) (v : Word) : SetupKept s (snoopRunning off v u) := by
  unfold snoopRunning
  split_ifs
  · exact h.within (within_returnWord (.refl u) v)
  · exact h.within (within_postWord (.refl u) v)
  · exact h.within (within_readIndex (.refl u) v)
  · exact setupKept_commitStations h
  · exact h.within (within_cancelWord (.refl u) v)
  · exact ⟨h.held, h.straps⟩
  · exact setupKept_setLow h v
  · exact h.within (within_lineControl (.refl u) _ v)
  · exact h

theorem setupKept_snoop (h : SetupKept s u) (off : Nat) (v : Word) : SetupKept s (snoop off v u) := by
  unfold snoop
  split_ifs
  · exact setupKept_startWord h
  · exact setupKept_resumeHold h
  · exact h.within (within_lineSettings (.refl u) _ v)
  · exact ⟨h.held, h.straps⟩
  · exact setupKept_snoopRunning h off v
  · exact h

theorem setupKept_poolWrite (h : SetupKept s u) (a : Access) (b : Nat) : SetupKept s (poolWrite a b u) := by
  unfold poolWrite
  split
  · exact h
  · split
    · exact ⟨h.held, h.straps⟩
    · exact h.within (within_guardViolation (.refl u) _ _ _)

theorem setupKept_forward (h : SetupKept s u) (a : Access) : SetupKept s (forward a u) := ⟨h.held, h.straps⟩

theorem setupKept_arriveWrite (h : SetupKept s u) (addr : Addr) (w : WriteData) :
    SetupKept s (arriveWrite addr w u) := by
  unfold arriveWrite; dsimp only
  split
  · split
    · exact setupKept_snoop (setupKept_forward h _) _ _
    · exact setupKept_forward h _
  · split
    · exact setupKept_poolWrite h _ _
    · exact setupKept_forward h _
  · exact setupKept_forward h _

theorem setupKept_answer (h : SetupKept s u) (v : Word) : SetupKept s (answer v u) := ⟨h.held, h.straps⟩

theorem setupKept_claimWord (h : SetupKept s u) : SetupKept s (claimWord u) :=
  setupKept_answer (h.within (within_claimBlock (.refl u))) _

/-- A substituted read is answered by the claim or with a live word (R6). -/
theorem setupKept_substituted {off : Nat} {f : State → State} {t : State} (e : substituted t off = some f)
    (h : SetupKept s u) : SetupKept s (f u) := by
  unfold substituted at e
  split_ifs at e
  · cases e; exact setupKept_claimWord h
  · obtain ⟨v, -, rfl⟩ := Option.map_eq_some_iff.1 e
    exact setupKept_answer h v

theorem setupKept_arriveRead (h : SetupKept s u) (addr : Addr) : SetupKept s (arriveRead addr u) := by
  unfold arriveRead
  split
  · next e =>
    obtain ⟨off, -, eo⟩ := Option.bind_eq_some_iff.1 e
    exact setupKept_substituted eo h
  · exact setupKept_forward h _

theorem setupKept_processorWrite (h : SetupKept s u) (addr : Addr) (w : WriteData) :
    SetupKept s (processorWrite addr w u) := by
  unfold processorWrite
  split
  · exact ⟨h.held, h.straps⟩
  · exact setupKept_arriveWrite h addr w

theorem setupKept_processorRead (h : SetupKept s u) (addr : Addr) : SetupKept s (processorRead addr u) := by
  unfold processorRead
  split
  · exact ⟨h.held, h.straps⟩
  · exact setupKept_arriveRead h addr

/-! ## Completions and reset -/

/-- An internal request completes: the store is served, and then the issuer is told (R11). -/
theorem finishRequest_within (r : Req) (s : State) :
    Within { ended s with store := s.store.serve r.addr r.write } (finishRequest r s) := by
  unfold finishRequest; dsimp only
  split
  · exact within_rxCompleted (Within.refl _) _
  · exact Within.refl _

theorem setupKept_finishRequest (r : Req) (s : State) : SetupKept s (finishRequest r s) := by
  refine SetupKept.within ?_ (finishRequest_within r s)
  exact ⟨rfl, rfl⟩

theorem finishRequest_officeState (r : Req) (s : State) : (finishRequest r s).office.state = s.office.state :=
  (congrArg OfficeControl.state (finishRequest_within r s).office : _)

theorem setupKept_settleAccess (a : Access) (s : State) : SetupKept s (settleAccess a s) := by
  unfold settleAccess; dsimp only
  split <;> exact ⟨rfl, rfl⟩

theorem setupKept_enterRunning (h : SetupKept s u) : SetupKept s (enterRunning u) := by
  unfold enterRunning
  split
  · exact ⟨h.held, h.straps⟩
  · exact h

/-- Outside SETUP READ a setup word is not awaited (R14). -/
theorem setupWordDone_notAwaited {v : Word} (h : s.office.state ≠ .setupRead) : setupWordDone v s = s := by
  unfold setupWordDone
  rw [if_neg h]

theorem setupKept_endWrite (s : State) : SetupKept s (endWrite s) := by
  unfold endWrite
  split
  · exact .refl s
  · split
    · exact .refl s
    · dsimp only
      split <;> exact ⟨rfl, rfl⟩

theorem setupKept_assertReset (s : State) : SetupKept s (assertReset s) :=
  ⟨(setupKept_endWrite s).held, (setupKept_endWrite s).straps⟩

end Sys2Proof.Machine

/-! SUPPORT. What every command answers: nothing arises, or an event's body is carried out and the event ends (log 2). -/

namespace Sys2Proof.Machine

/-- Outcome `o` in state `s`: nothing arises, or an event whose body makes of `s` a state that meets `P`, and which ends as
every event does. -/
def AnswersBy (P : State → Prop) (s : State) (o : Host.Outcome State Fault Refusal) : Prop :=
  o = .next s ∨ ∃ u, P u ∧ o = .next (settle u)

theorem AnswersBy.mono {P Q : State → Prop} {s : State} {o : Host.Outcome State Fault Refusal}
    (h : AnswersBy P s o) (hPQ : ∀ u, P u → Q u) : AnswersBy Q s o :=
  h.imp_right fun ⟨u, hu, e⟩ => ⟨u, hPQ u hu, e⟩

theorem AnswersBy.of_next {P : State → Prop} {s t : State} (h : AnswersBy P s (.next t)) :
    t = s ∨ ∃ u, P u ∧ t = settle u := by
  obtain e | ⟨u, hu, e⟩ := h
  · exact .inl (Host.Outcome.next.inj e)
  · exact .inr ⟨u, hu, Host.Outcome.next.inj e⟩

theorem event_answers {P : State → Prop} {due : Bool} {f : State → State} {s : State} (h : due = true → P (f s)) :
    AnswersBy P s (event due f s) := by
  cases due with
  | false => exact .inl rfl
  | true => exact .inr ⟨f s, h rfl, rfl⟩

theorem lineEvent_answers {P : State → Prop} (n : LineNo) (due : LineUnit → Bool) {f : State → State} {s : State}
    (h : P (f s)) : AnswersBy P s (lineEvent n due f s) := event_answers fun _ => h

theorem completion_answers {P : State → Prop} {p : Purpose → Bool} {f : Req → Word → State → State} {s : State}
    (h : ∀ r, s.port.cycle = some (.internal r) → p r.purpose = true →
      P (f r (s.store.readWord r.addr) (finishRequest r s))) : AnswersBy P s (completion p f s) := by
  unfold completion
  split
  · next r hc => exact event_answers fun hp => h r hc hp
  · exact .inl rfl

/-! ## The setup is kept -/

section
variable (s : State)

theorem writeEvent_keepsSetup (a : Addr) (w : WriteData) : AnswersBy (SetupKept s) s (writeEvent a w s) :=
  event_answers fun _ => setupKept_processorWrite (.refl s) a w

theorem readEvent_keepsSetup (a : Addr) : AnswersBy (SetupKept s) s (readEvent a s) :=
  event_answers fun _ => setupKept_processorRead (.refl s) a

theorem lineEvent_keepsSetup (n : LineNo) (due : LineUnit → Bool) {f : State → State} (h : Within s (f s)) :
    AnswersBy (SetupKept s) s (lineEvent n due f s) := lineEvent_answers n due h.setupKept

theorem forwardedAccessCompletion_keepsSetup : AnswersBy (SetupKept s) s (execForwardedAccessCompletion s) := by
  unfold execForwardedAccessCompletion
  split
  · exact event_answers fun _ => setupKept_settleAccess _ s
  · exact .inl rfl

theorem walkCompletion_keepsSetup (p : Purpose → Bool) {f : Walk → Word → State → State}
    (h : ∀ w v u, Within u (f w v u)) : AnswersBy (SetupKept s) s (walkCompletion p f s) :=
  completion_answers fun r _ _ => by
    split
    · exact (setupKept_finishRequest r s).within (h _ _ _)
    · exact setupKept_finishRequest r s

theorem transmitterCompletion_keepsSetup (p : Purpose → Bool) {f : LineNo → Word → State → State}
    (h : ∀ {s u : State}, Within s u → ∀ n v, Within s (f n v u)) :
    AnswersBy (SetupKept s) s (transmitterCompletion p f s) :=
  completion_answers fun r _ _ => by
    split
    · split
      · exact (setupKept_finishRequest r s).within (within_updTx (.refl _) _ _)
      · exact (setupKept_finishRequest r s).within (h (within_updTx (.refl _) _ _) _ _)
    · exact setupKept_finishRequest r s

end

/-- The setup held changes only where a setup is validated or reset is deasserted, and the strap sample only at the latter
(R3, R13): what the body of command `c` may make of `s`. -/
def SetupKeptBut (c : Instr) (s u : State) : Prop :=
  SetupKept s u ∨ (c = .setupReadCompletion ∧ s.office.state = .setupRead) ∨ ∃ p h, c = .resetDeasserted p h

theorem AnswersBy.kept {c : Instr} {s : State} {o : Host.Outcome State Fault Refusal} (h : AnswersBy (SetupKept s) s o) :
    AnswersBy (SetupKeptBut c s) s o := h.mono fun _ => .inl

/-- Every command is an event or changes nothing, and keeps the setup but for those two. -/
theorem exec_answers (c : Instr) (s : State) : AnswersBy (SetupKeptBut c s) s (exec c s) := by
  unfold exec
  cases c
  -- the reset input and the setup
  case resetAsserted => exact .kept (event_answers fun _ => setupKept_assertReset s)
  case resetDeasserted p h => exact event_answers fun _ => .inr (.inr ⟨p, h, rfl⟩)
  case setupReadCompletion =>
    refine completion_answers fun r _ _ => ?_
    by_cases hs : s.office.state = .setupRead
    · exact .inr (.inl ⟨rfl, hs⟩)
    · rw [setupWordDone_notAwaited (by rwa [finishRequest_officeState])]
      exact .inl (setupKept_finishRequest r s)
  case poolBuildEnd => exact .kept (completion_answers fun r _ _ => setupKept_enterRunning (setupKept_finishRequest r s))
  -- accesses of the processor
  case processorWrite | poolWrite | startWord | returnWord | postWord | commitStations | stationShadowWrite | cancelWord |
      clockSetHigh | clockSetLow | enable | disable | lineReset | lineSettingsWord | reportReadIndex =>
    exact .kept (writeEvent_keepsSetup s _ _)
  case claim => exact .kept (readEvent_keepsSetup s _)
  case resume be hold =>
    exact .kept (event_answers fun _ => setupKept_processorWrite (setupKept_holdLevel (.refl s) hold) _ _)
  -- the Store Port
  case forwardedAccessCompletion => exact .kept (forwardedAccessCompletion_keepsSetup s)
  case requestPlacement =>
    refine .kept (event_answers fun hd => setupKept_placeWaiting ?_)
    simp only [placementDue, Bool.and_eq_true, decide_eq_true_eq] at hd
    exact hd.2
  case internalWriteCompletion => exact .kept (completion_answers fun r _ _ => setupKept_finishRequest r s)
  case reportWordCompletion =>
    exact .kept (completion_answers fun r _ _ => (setupKept_finishRequest r s).within (within_updReport (.refl _) _))
  -- walks
  case linkReadCompletion => exact .kept (walkCompletion_keepsSetup s _ fun w v u => within_linkReadDone (.refl u) w v)
  case handOverHeadWriteCompletion =>
    exact .kept (walkCompletion_keepsSetup s _ fun w _ u => within_handOverHeadDone (.refl u) w)
  case postingLinkReadCompletion =>
    exact .kept (walkCompletion_keepsSetup s _ fun w v u => within_postLinkDone (.refl u) w v)
  case postingHeadReadCompletion =>
    exact .kept (walkCompletion_keepsSetup s _ fun w v u => within_postHeadReadDone (.refl u) w v)
  case postingHeadWriteCompletion =>
    exact .kept (walkCompletion_keepsSetup s _ fun w _ u => within_postingDone (.refl u) w)
  -- the office
  case clockAdvance => exact .kept (event_answers fun _ => setupKept_advanceClock (.refl s))
  case holdLatching => exact .kept (event_answers fun _ => setupKept_assertHold (.refl s))
  -- samplers and receivers
  case startEdge n =>
    exact .kept (lineEvent_keepsSetup s n _ (within_updLine (.refl s) n _ (by intro _; exact Nat.le_refl _)))
  case falseStart n lastSpace =>
    refine .kept (lineEvent_keepsSetup s n _ (within_checkIdlePoint (within_updLine (.refl s) n _ ?_) n))
    intro l
    unfold falseStart
    split <;> exact Nat.le_refl _
  case breakEnd n =>
    exact .kept (lineEvent_keepsSetup s n _ (within_updLine (.refl s) n _ (by intro _; exact Nat.le_refl _)))
  case characterCompletion n code noise framing lastMark =>
    exact .kept (lineEvent_answers n _ (setupKept_completeCharacter n code noise framing lastMark s))
  case receiverTake n => exact .kept (lineEvent_keepsSetup s n _ (within_takeEntry (.refl s) n))
  case idleTimeoutExpiry n =>
    exact .kept (lineEvent_keepsSetup s n _ (within_updRx (.refl s) n _ (by intro _; exact Nat.le_refl _)))
  case idleClose n => exact .kept (lineEvent_keepsSetup s n _ (within_idleCloseMessage (.refl s) n))
  case breakDetection n => exact .kept (lineEvent_keepsSetup s n _ (within_detectBreak (.refl s) n))
  case loopOpen n => exact .kept (lineEvent_keepsSetup s n _ (within_openLoop (.refl s) n))
  case steadyMark n => exact .kept (lineEvent_keepsSetup s n _ (within_steadyMark (.refl s) n))
  -- transmitters
  case frameStart n => exact .kept (lineEvent_keepsSetup s n _ (within_beginNext (.refl s) n))
  case preambleEnd n => exact .kept (lineEvent_keepsSetup s n _ (within_endPreamble (.refl s) n))
  case characterBoundary n => exact .kept (lineEvent_keepsSetup s n _ (within_boundary (.refl s) n))
  case breakInEnd n => exact .kept (lineEvent_keepsSetup s n _ (within_endBreakIn (.refl s) n))
  case guardExpiry n => exact .kept (lineEvent_keepsSetup s n _ (within_expireGuard (.refl s) n))
  case answerTimeoutExpiry n => exact .kept (lineEvent_keepsSetup s n _ (within_expireAnswer (.refl s) n))
  case collision n => exact .kept (lineEvent_keepsSetup s n _ (within_collide (.refl s) n))
  case backoffExpiry n => exact .kept (lineEvent_keepsSetup s n _ (within_expireBackoff (.refl s) n))
  case transmitHeadReadCompletion =>
    exact .kept (transmitterCompletion_keepsSetup s _ fun h n v => within_headReadDone h n v)
  case textReadCompletion => exact .kept (transmitterCompletion_keepsSetup s _ fun h n v => within_textReadDone h n v)
  case transmitLinkReadCompletion =>
    exact .kept (transmitterCompletion_keepsSetup s _ fun h n v => within_textLinkDone h n v)

end Sys2Proof.Machine


/-! SUPPORT. Office Control's setup reads (R14). -/

namespace Sys2Proof.Machine

/-- Office Control has placed its next `m` setup reads: they are the last requests not completed, the access with the Store
Port is the same, and no other part changed. -/
structure SetupReadsPlaced (m : Nat) (u t : State) : Prop where
  office : t.office = { u.office with setupNext := u.office.setupNext + m }
  requests : requests t = requests u ++
    (List.range' u.office.setupNext m).map (fun k => readReq (pageAddr u k) .office .setupRead)
  forwards : ∀ a, Forwards a t ↔ Forwards a u
  others : { t with port := u.port, office := u.office } = u

theorem SetupReadsPlaced.none (u : State) : SetupReadsPlaced 0 u u where
  office := rfl
  requests := by simp
  forwards _ := Iff.rfl
  others := rfl

/-- The next setup read is placed. -/
theorem SetupReadsPlaced.one (u : State) : SetupReadsPlaced 1 u
    (setupReadPlaced (place (readReq (pageAddr u u.office.setupNext) .office .setupRead) u)) where
  office := by rw [place_eq]; rfl
  requests := requests_place _ u
  forwards a := forwards_place a _ u
  others := by rw [place_eq]; rfl

theorem SetupReadsPlaced.trans {j m : Nat} {u v t : State} (h : SetupReadsPlaced j u v) (k : SetupReadsPlaced m v t) :
    SetupReadsPlaced (j + m) u t where
  office := by rw [k.office, h.office, Nat.add_assoc]
  requests := by
    have hpage : pageAddr v = pageAddr u := by rw [← h.others]; rfl
    have hnext : v.office.setupNext = u.office.setupNext + j := by rw [h.office]
    rw [k.requests, h.requests, hpage, hnext, ← List.range'_append_1, List.map_append, List.append_assoc]
  forwards a := (k.forwards a).trans (h.forwards a)
  others :=
    calc { t with port := u.port, office := u.office }
      _ = { { t with port := v.port, office := v.office } with port := u.port, office := u.office } := rfl
      _ = { v with port := u.port, office := u.office } := by rw [k.others]
      _ = u := h.others

theorem SetupReadsPlaced.quiet {m : Nat} {u t : State} (h : SetupReadsPlaced m u t) (hu : Quiet u) : Quiet t := by
  rw [← h.others] at hu
  exact hu

/-- With room for all the reads that are left, Office Control places them at one event. -/
theorem pump_placesSetupReads {m k : Nat} {u : State} (hs : u.office.state = .setupRead)
    (hm : u.office.setupNext + m = 14) (hk : m < k) (room : Room m u) :
    SetupReadsPlaced m u (pump .office nextSetupRead setupReadPlaced k u) := by
  induction k generalizing m u with
  | zero => omega
  | succ k ih =>
    obtain ⟨hwait, hqueue⟩ := room
    cases m with
    | zero =>
      have hnone : nextSetupRead u = none := by
        unfold nextSetupRead
        rw [if_neg (by omega)]
      unfold pump
      rw [hnone]
      exact .none u
    | succ m =>
      have hnext : nextSetupRead u = some (readReq (pageAddr u u.office.setupNext) .office .setupRead) := by
        unfold nextSetupRead
        rw [if_pos ⟨hs, by omega⟩]
      have hadmits : admits u = true := by
        unfold admits
        simp only [hwait, List.isEmpty_nil, Bool.and_true, decide_eq_true_eq]
        omega
      have hone := SetupReadsPlaced.one u
      unfold pump
      rw [hnext]
      simp only [hadmits, if_true]
      rw [Nat.add_comm m 1]
      refine hone.trans (ih ?_ ?_ (by omega) ⟨(place_waiting _ u).trans hwait, ?_⟩)
      · rw [hone.office]; exact hs
      · rw [hone.office]; simp only; omega
      · have := place_queue_le (readReq (pageAddr u u.office.setupNext) .office .setupRead) u
        show (place _ u).port.queue.length + m ≤ _
        omega

/-- R13: in DORMANT, with room for them, the start word offers the fourteen setup reads. -/
theorem startWord_dormant {s : State} (hs : s.office.state = .dormant) (room : Room 14 s) :
    SetupReadsPlaced 14 { s with office := { s.office with
      state := .setupRead, refusal := 0, setupNext := 0, setupWords := [] } } (startWord s) := by
  unfold startWord
  rw [hs]
  exact pump_placesSetupReads (k := pumpFuel) rfl rfl (by decide) room

theorem startWord_loading {s : State} (hs : s.office.state = .setupRead ∨ s.office.state = .poolBuild) :
    startWord s = s := by
  unfold startWord
  obtain h | h := hs <;> rw [h]

theorem startWord_running {s : State} (hs : s.office.state = .running) :
    startWord s = { s with office := { s.office with setupLocked := true } } := by
  unfold startWord
  rw [hs]
  rfl

theorem quiet_forward {s : State} (a : Access) (h : Quiet s) : Quiet (forward a s) := h

/-- The start word with both byte enables is forwarded and taken, whatever its value (R4, R13). -/
theorem exec_startWord {s : State} (h : Accessible s) (v : Word) : exec (.startWord v .both) s =
    .next (settle (startWord (forward (pageWrite s 16 v .both) s))) := by
  obtain ⟨⟨hr, -⟩, hp⟩ := h
  show writeEvent (pageAddr s 16) ⟨v, .both⟩ s = _
  rw [writeEvent_open hp, processorWrite_open hr, arriveWrite_page s (by omega), if_pos rfl]
  rfl

end Sys2Proof.Machine

/-! The obligations of the memory path. -/

namespace Sys2Proof.MemoryPath

open Sys2Proof.Machine

/-! ## Forwarded accesses (R2) -/

theorem exec_forwardedAccessCompletion {s : State} {a : Access} (h : s.port.cycle = some (.forwarded a)) :
    exec .forwardedAccessCompletion s = .next (settle (settleAccess a s)) := by
  show execForwardedAccessCompletion s = _
  unfold execForwardedAccessCompletion
  rw [h]
  rfl

theorem settleAccess_write {s : State} {a : Access} {w : WriteData} (h : a.write = some w) :
    settleAccess a s = { ended s with store := s.store.write a.addr w } := by
  unfold settleAccess
  rw [h]
  rfl

theorem settleAccess_read {s : State} {a : Access} (h : a.write = none) :
    settleAccess a s = { ended s with path := { s.path with pdOut := s.store.readWord a.addr } } := by
  unfold settleAccess
  rw [h]
  rfl

/-- Settling an access frees the bus; what else may wait for the processor stays. -/
theorem settleAccess_quiet {s : State} (a : Access) (h : Quiet s) : Quiet (settleAccess a s) := by
  unfold settleAccess
  cases a.write <;> exact h

theorem pwait_settleAccess {s : State} (a : Access) (hheld : s.path.held = none) (hfwd : s.port.fwd = none) :
    pwait (settleAccess a s) = false := by
  unfold settleAccess
  cases a.write <;> exact (pwait_eq_false_iff _).2 ⟨hheld, fun b => by simp [Forwards, hfwd, endCycle, serveStore, answer]⟩

/-- Settles O10: the event ends in a quiet state, so it is `settleAccess` and the end of the event, which keeps PWAIT. -/
theorem forwardedCompletion : Obligations.ForwardedCompletion := by
  intro s a hquiet hcycle
  have hexec : exec .forwardedAccessCompletion s = .next (eventEnd (settleAccess a s)) := by
    rw [exec_forwardedAccessCompletion hcycle, settle_quiet (settleAccess_quiet a hquiet)]
  refine ⟨fun w hw => ?_, fun hr => ?_, fun hheld hfwd => ⟨_, hexec, ?_⟩⟩
  · rw [hexec, settleAccess_write hw]
  · rw [hexec, settleAccess_read hr]
  · rw [pwait_eventEnd, pwait_settleAccess a hheld hfwd]

/-! ## Arbitration (R10) -/

/-- Settles O12: the arbiter's cases, and that every event out of reset ends with the arbiter. -/
theorem arbiterTurns : Obligations.ArbiterTurns := by
  refine ⟨fun s => ⟨startCycle_taken, fun hcycle => ⟨startCycle_noWork, fun a => startCycle_forwarded hcycle,
    fun r rest => startCycle_internal hcycle⟩⟩, rfl, fun c s t hexec hout hbefore => ?_⟩
  obtain rfl | ⟨u, -, rfl⟩ := (hexec ▸ exec_answers c s).of_next
  · exact hbefore.resolve_left (by simp [hout])
  · exact busServed_settle ((within_settle (.refl u)).resetIn.symm.trans hout)

/-! ## The office start (R13) -/

/-- In DORMANT: Office Control places the fourteen setup reads, and the end of the event keeps requests and access. -/
theorem startWord_inDormant {s : State} (v : Word) (h : Accessible s) (hs : s.office.state = .dormant) (room : Room 14 s) :
    ∃ t, exec (.startWord v .both) s = .next t ∧ Forwards (pageWrite s 16 v .both) t ∧
      t.office = { s.office with state := .setupRead, refusal := 0, setupNext := 14, setupWords := [] } ∧
      requests t = requests s ++ (List.range 14).map (fun k => readReq (pageAddr s k) .office .setupRead) ∧
      { t with port := s.port, office := s.office, report := s.report } = s := by
  have hp := startWord_dormant (s := forward (pageWrite s 16 v .both) s) hs room
  generalize hu : startWord (forward (pageWrite s 16 v .both) s) = u at hp
  have hquiet : Quiet u := hp.quiet h.1
  refine ⟨eventEnd u, by rw [exec_startWord h, hu, settle_quiet hquiet], ?_, ?_, ?_, ?_⟩
  · exact (forwards_eventEnd _ u).2 ((hp.forwards _).2 (.inl rfl))
  · rw [eventEnd_eq]; exact hp.office
  · rw [requests_eventEnd, hp.requests, List.range_eq_range']; rfl
  · rw [eventEnd_eq]
    exact congrArg (fun x => { x with port := s.port, office := s.office, report := s.report }) hp.others

/-- Settles O14: the start word in each office state; and while RUNNING no setup is validated, so that of the commands only
the deassertion of reset can change the held values. -/
theorem startWord : Obligations.StartWord := by
  refine ⟨fun s v h => ⟨startWord_inDormant v h, fun hs => ?_, fun hs => ?_⟩, fun c s t hrun hexec hheld => ?_⟩
  · rw [exec_startWord h, startWord_loading (s := forward _ s) hs, settle_quiet (quiet_forward _ h.1)]
  · rw [exec_startWord h, startWord_running (s := forward _ s) hs]
    exact congrArg Host.Outcome.next (settle_quiet (quiet_forward (pageWrite s 16 v .both) h.1))
  · obtain rfl | ⟨u, hu, rfl⟩ := (hexec ▸ exec_answers c s).of_next
    · exact absurd rfl hheld
    · obtain hkept | ⟨-, hs⟩ | hreset := hu
      · exact absurd (hkept.within (within_settle (.refl u))).held hheld
      · simp [running, hs] at hrun
      · exact hreset

end Sys2Proof.MemoryPath

/-! SUPPORT. The Report Unit at work: what placing its words leaves unchanged, and an event that ends with one report on offer
(R182, R183). -/

namespace Sys2Proof.Machine

/-- What the processor waits for is the access held by reset and the access with the Store Port (R1). -/
theorem pwait_congr {s t : State} (hpath : t.path = s.path) (hf : ∀ a, Forwards a t ↔ Forwards a s) : pwait t = pwait s := by
  apply Bool.eq_iff_iff.2
  rw [← not_iff_not]
  simp only [Bool.not_eq_true, pwait_eq_false_iff, hpath, hf]

/-! ## Report words placed (R183) -/

/-- The Report Unit has placed some of its words, or waits to: only the Store Port and the progress through the record list
changed, and the access with the Store Port is the same. -/
structure ReportWordsPlaced (u t : State) : Prop where
  others : { t with port := u.port, report := u.report } = u
  report : t.report = { u.report with records := t.report.records, wordNext := t.report.wordNext }
  records : t.report.records <:+ u.report.records
  forwards : ∀ a, Forwards a t ↔ Forwards a u

/-- To change the Store Port, but for the access with it, is to place no report word. -/
theorem ReportWordsPlaced.ofPort {u t : State} (h : t = { u with port := t.port })
    (hf : ∀ a, Forwards a t ↔ Forwards a u) : ReportWordsPlaced u t where
  others := by rw [h]
  report := by rw [h]
  records := by rw [h]
  forwards := hf

theorem ReportWordsPlaced.refl (u : State) : ReportWordsPlaced u u := .ofPort rfl fun _ => Iff.rfl

theorem ReportWordsPlaced.trans {u v t : State} (h : ReportWordsPlaced u v) (k : ReportWordsPlaced v t) :
    ReportWordsPlaced u t where
  others :=
    calc { t with port := u.port, report := u.report }
      _ = { { t with port := v.port, report := v.report } with port := u.port, report := u.report } := rfl
      _ = { v with port := u.port, report := u.report } := by rw [k.others]
      _ = u := h.others
  report := by rw [k.report, h.report]
  records := k.records.trans h.records
  forwards a := (k.forwards a).trans (h.forwards a)

theorem reportWordsPlaced_place (r : Req) (u : State) : ReportWordsPlaced u (place r u) :=
  .ofPort (place_eq r u) fun a => forwards_place a r u

theorem reportWordsPlaced_waitFor (i : Issuer) (u : State) : ReportWordsPlaced u (waitFor i u) := by
  unfold waitFor
  split
  · exact .refl u
  · exact .ofPort rfl fun _ => Iff.rfl

theorem reportWordsPlaced_reportWordPlaced (u : State) : ReportWordsPlaced u (reportWordPlaced u) where
  others := rfl
  report := by unfold reportWordPlaced; rw [updReport_report]; split <;> rfl
  records := by
    unfold reportWordPlaced
    rw [updReport_report]
    split
    · exact List.tail_suffix _
    · exact List.suffix_refl _
  forwards _ := Iff.rfl

theorem reportWordsPlaced_pumpReport (u : State) : ReportWordsPlaced u (pumpReport u) := by
  unfold pumpReport
  induction pumpFuel generalizing u with
  | zero => exact .refl u
  | succ k ih =>
    unfold pump
    split
    · exact .refl u
    · next r _ =>
      split
      · exact (reportWordsPlaced_place r u).trans ((reportWordsPlaced_reportWordPlaced _).trans (ih _))
      · exact reportWordsPlaced_waitFor _ u

/-! ## An offer is settled (R182) -/

theorem acceptReport_room {r : Record} {s : State} (h : heldCount s < ringSize s) : acceptReport r s =
    { s with report := { s.report with
      records := s.report.records ++ [(s.report.fill, r)], fill := s.report.fill + 1 } } := if_pos h

theorem acceptReport_full {r : Record} {s : State} (h : ringSize s ≤ heldCount s) : acceptReport r s =
    { s with report := { s.report with overflow := true, tally := min 255 (s.report.tally + 1) } } :=
  if_neg (Nat.not_lt.2 h)

/-- Accepting a report, or discarding it, changes the Report Unit alone. -/
theorem acceptReport_eq (r : Record) (s : State) : acceptReport r s = { s with report := (acceptReport r s).report } := by
  unfold acceptReport
  split <;> rfl

/-- Neither outcome of an offer moves the write or the read index, or marks the read index bad (R182). -/
theorem acceptReport_indices (r : Record) (s : State) :
    (acceptReport r s).report.write = s.report.write ∧ (acceptReport r s).report.read = s.report.read ∧
      (acceptReport r s).report.badRead = s.report.badRead := by
  unfold acceptReport
  split <;> exact ⟨rfl, rfl, rfl⟩

@[simp] theorem forwards_takeReport (a : Access) (r : Record) (s : State) : Forwards a (takeReport r s) ↔ Forwards a s := by
  rw [takeReport, (reportWordsPlaced_pumpReport _).forwards, acceptReport_eq]
  exact Iff.rfl

theorem takeReport_path (r : Record) (s : State) : (takeReport r s).path = s.path :=
  (within_takeReport (.refl s) r).path

/-- The access the processor waits for is the same after a report is taken. -/
theorem pwait_takeReport (r : Record) (s : State) : pwait (takeReport r s) = pwait s :=
  pwait_congr (takeReport_path r s) fun a => forwards_takeReport a r s

/-- In a quiet state an event that offers one report ends with that report taken. -/
theorem settle_offerReport {r : Record} {s : State} (h : Quiet s) :
    settle (offerReport r s) = eventEnd (takeReport r s) := by
  obtain ⟨hr, hw, ho⟩ := h
  have hoffers : (offerReport r s).report.offers = [{ record := r, attached := false, ending := none }] := by
    simp [offerReport, ho]
  have htaken : { offerReport r s with report := { (offerReport r s).report with offers := [] } } = s := by
    rw [← ho]; rfl
  have htake : takeOffers (offerReport r s) = takeReport r s := by
    rw [takeOffers_oneOwner (by rw [hoffers]; rfl), htaken, hoffers]
    rfl
  unfold settle
  rw [if_neg (by simp [offerReport, hr]), runWalker_quiet (s := offerReport r s) _ hw, htake]
  rfl

/-- Taking a report and ending the event is what `Offers` says of it. -/
theorem offers_takeReport (r : Record) (s : State) : Offers r s (eventEnd (takeReport r s)) := by
  have hp := reportWordsPlaced_pumpReport (acceptReport r s)
  have hreport : (eventEnd (takeReport r s)).report = { (acceptReport r s).report with
      records := (takeReport r s).report.records, wordNext := (takeReport r s).report.wordNext,
      attn := (eventEnd (takeReport r s)).report.attn } := by
    rw [eventEnd_eq]
    simp only [takeReport]
    rw [hp.report]
  have hrecords := hp.records
  obtain ⟨hwrite, hread, hbad⟩ := acceptReport_indices r s
  refine { part := ?_, write := by rw [hreport]; exact hwrite, read := by rw [hreport]; exact hread,
           badRead := by rw [hreport]; exact hbad, attn := rfl, accepted := fun h => ?_, discarded := fun h => ?_ }
  · calc { eventEnd (takeReport r s) with port := s.port, report := s.report }
      _ = { takeReport r s with port := s.port, report := s.report } := by rw [eventEnd_eq]
      _ = { { takeReport r s with port := (acceptReport r s).port, report := (acceptReport r s).report } with
            port := s.port, report := s.report } := rfl
      _ = { acceptReport r s with port := s.port, report := s.report } := by rw [takeReport, hp.others]
      _ = s := by rw [acceptReport_eq]
  · rw [acceptReport_room h] at hreport hrecords
    rw [hreport]
    refine ⟨rfl, rfl, rfl, ?_⟩
    simpa only [takeReport, acceptReport_room h] using hrecords
  · rw [acceptReport_full h] at hreport hrecords
    rw [hreport]
    refine ⟨rfl, rfl, rfl, ?_⟩
    simpa only [takeReport, acceptReport_full h] using hrecords

end Sys2Proof.Machine

/-! SUPPORT. The Pool Unit's free list: what the dropping of link writes and the taking of the head block change (R23, R24). -/

namespace Sys2Proof.Machine

/-- Dropping the link writes into `b` changes the walker's list of them, its offered request and the waiting list alone. -/
theorem dropLinkWrites_eq (b : Nat) (s : State) : dropLinkWrites b s = { s with
    walker := { s.walker with
      links := s.walker.links.filter (fun l => l.target != b), offered := (dropLinkWrites b s).walker.offered }
    port := { s.port with waiting := (dropLinkWrites b s).port.waiting } } := by
  unfold dropLinkWrites
  dsimp only
  split
  · rfl
  · split
    · split <;> rfl
    · rfl

/-- The head block `b` of `s`'s free list is taken in state `v`: it leaves the list, and the link writes into it that are not
placed are dropped. Requests that joined the queue, and the access with the Store Port, are the same. -/
structure HeadTaken (v : BlockState) (b : Nat) (rest : List Nat) (s u : State) : Prop where
  pool : u.pool = { s.pool with map := s.pool.map.set b v, free := rest }
  walker : u.walker = { s.walker with links := s.walker.links.filter (fun l => l.target != b), offered := u.walker.offered }
  requests : requests u = requests s
  forwards : ∀ a, Forwards a u ↔ Forwards a s
  others : { u with pool := s.pool, walker := s.walker, port := s.port } = s

theorem takeFree_cons (v : BlockState) {s : State} {b : Nat} {rest : List Nat} (h : s.pool.free = b :: rest) :
    ∃ u, takeFree v s = some (b, u) ∧ HeadTaken v b rest s u := by
  refine ⟨_, by unfold takeFree; rw [h], ?_⟩
  constructor <;> rw [dropLinkWrites_eq]
  case pool | walker | requests | others => rfl
  case forwards => exact fun _ => Iff.rfl

theorem takeFree_nil (v : BlockState) {s : State} (h : s.pool.free = []) : takeFree v s = none := by
  unfold takeFree
  rw [h]

theorem HeadTaken.quiet {v : BlockState} {b : Nat} {rest : List Nat} {s u : State} (h : HeadTaken v b rest s u)
    (hs : Quiet s) : Quiet u := by
  rw [← h.others] at hs
  obtain ⟨hr, hw, ho⟩ := hs
  refine ⟨hr, ?_, ho⟩
  rw [h.walker]
  exact hw

theorem HeadTaken.path_eq {v : BlockState} {b : Nat} {rest : List Nat} {s u : State} (h : HeadTaken v b rest s u) :
    u.path = s.path := (congrArg State.path h.others : _)

theorem HeadTaken.report_eq {v : BlockState} {b : Nat} {rest : List Nat} {s u : State} (h : HeadTaken v b rest s u) :
    u.report = s.report := (congrArg State.report h.others : _)

theorem HeadTaken.pwait_eq {v : BlockState} {b : Nat} {rest : List Nat} {s u : State} (h : HeadTaken v b rest s u) :
    pwait u = pwait s := pwait_congr h.path_eq h.forwards

end Sys2Proof.Machine

/-! The obligations of the block pool. -/

namespace Sys2Proof.BlockPool

open Sys2Proof.Machine

/-! ## Claims (R6, R24) -/

theorem claimWord_cons {s : State} {b : Nat} {rest : List Nat} (h : s.pool.free = b :: rest) :
    ∃ u, Machine.claimWord s = answer (blockNumber b) u ∧ HeadTaken .held b rest s u := by
  obtain ⟨u, htake, hu⟩ := takeFree_cons .held h
  refine ⟨u, ?_, hu⟩
  unfold Machine.claimWord claimBlock
  rw [htake]

theorem claimWord_nil {s : State} (h : s.pool.free = []) : Machine.claimWord s = answer 65535 s := by
  unfold Machine.claimWord claimBlock
  rw [takeFree_nil _ h]
  rfl

/-- A read of the claim word is substituted while RUNNING and else forwarded (R6). -/
theorem exec_claim {s : State} (h : Accessible s) : exec .claim s =
    .next (settle (if running s then Machine.claimWord s else forward ⟨pageAddr s 34, none⟩ s)) := by
  obtain ⟨⟨hr, -⟩, hp⟩ := h
  show readEvent (pageAddr s 34) s = _
  rw [readEvent_open hp, processorRead_open hr]
  unfold arriveRead
  rw [pageOffset_pageAddr s (by omega)]
  cases hrun : running s <;> simp [substituted, hrun]

/-- A claim of the head block: the end of the event adds nothing to what the taking changes. -/
theorem claim_head {s : State} {b : Nat} {rest : List Nat} (h : Accessible s) (hrun : running s = true)
    (hfree : s.pool.free = b :: rest) :
    ∃ t, exec .claim s = .next t ∧
      t.pool = { s.pool with map := s.pool.map.set b .held, free := rest } ∧
      t.path = { s.path with pdOut := BitVec.ofNat 16 b } ∧
      t.walker.links = s.walker.links.filter (fun l => l.target != b) ∧
      t.walker.walk = s.walker.walk ∧ t.walker.queue = s.walker.queue ∧ requests t = requests s ∧ pwait t = false ∧
      { t with pool := s.pool, path := s.path, walker := s.walker, port := s.port, report := s.report } = s := by
  obtain ⟨u, hclaim, hu⟩ := claimWord_cons hfree
  have hquiet : Quiet (answer (blockNumber b) u) := hu.quiet h.1
  have hwalker : (eventEnd (answer (blockNumber b) u)).walker = u.walker := by rw [eventEnd_eq]; rfl
  refine ⟨eventEnd (answer (blockNumber b) u), ?_, ?_, ?_, ?_, ?_, ?_, ?_, ?_, ?_⟩
  · rw [exec_claim h, if_pos hrun, hclaim, settle_quiet hquiet]
  · rw [eventEnd_eq]; exact hu.pool
  · rw [eventEnd_eq, ← hu.path_eq]; rfl
  · rw [hwalker, hu.walker]
  · rw [hwalker, hu.walker]
  · rw [hwalker, hu.walker]
  · rw [requests_eventEnd]; exact hu.requests
  · rw [pwait_eventEnd]; exact hu.pwait_eq.trans h.2
  · rw [eventEnd_eq]
    calc { u with pool := s.pool, path := s.path, walker := s.walker, port := s.port, report := s.report }
      _ = { u with pool := s.pool, walker := s.walker, port := s.port } := by rw [← hu.path_eq, ← hu.report_eq]
      _ = s := hu.others

/-- Settles O17: a claim takes the head block, answers NONE for an empty list, and before RUNNING is forwarded. -/
theorem claimWord : Obligations.ClaimWord := by
  refine fun s h => ⟨fun hrun b rest => claim_head h hrun, fun hrun hfree => ?_, fun hrun => ?_⟩
  · have hquiet : Quiet (answer 65535 s) := h.1
    rw [exec_claim h, if_pos hrun, claimWord_nil hfree, settle_quiet hquiet]
    rfl
  · rw [exec_claim h, if_neg (by simp [hrun]), settle_quiet (quiet_forward _ h.1)]

/-! ## Writes into the pool (R7, R29, R30) -/

theorem poolBlock_inRegion {s : State} {addr : Addr} (hlow : s.office.held.poolBase * 32 ≤ addr.toNat)
    (hhigh : addr.toNat < s.office.held.poolBase * 32 + s.office.held.poolBlocks * 32) :
    poolBlock s addr = some ((addr.toNat - s.office.held.poolBase * 32) / 32) := if_pos ⟨hlow, hhigh⟩

/-- A write outside the control page into the pool region of an office that has one meets the guard, whatever its byte
enables (R7). -/
theorem exec_poolWrite {s : State} {addr : Addr} {b : Nat} (v : Word) (be : ByteEnables) (h : Accessible s)
    (hpage : pageOffset s addr = none) (hblock : poolBlock s addr = some b) (hexists : poolExists s = true) :
    exec (.poolWrite addr v be) s = .next (settle (poolWrite ⟨addr, some ⟨v, be⟩⟩ b s)) := by
  obtain ⟨⟨hr, -⟩, hp⟩ := h
  show writeEvent addr ⟨v, be⟩ s = _
  rw [writeEvent_open hp, processorWrite_open hr]
  unfold arriveWrite
  simp only [hpage, hblock, hexists, if_true]

theorem poolWrite_building {s : State} (a : Access) (b : Nat) (hs : s.office.state = .poolBuild) : poolWrite a b s = s :=
  if_pos hs

theorem poolWrite_passed {s : State} (a : Access) {b : Nat} (hs : s.office.state = .running)
    (h : writeCause (blockState s b) = none) : poolWrite a b s = forward a s := by
  unfold poolWrite
  rw [if_neg (by simp [hs]), h]

theorem poolWrite_suppressed {s : State} (a : Access) {b cause : Nat} (hs : s.office.state = .running)
    (h : writeCause (blockState s b) = some cause) :
    poolWrite a b s = guardViolation cause (blockNumber b) (a.addr.setWidth 16) s := by
  unfold poolWrite
  rw [if_neg (by simp [hs]), h]

/-- R30: a violation in a quiet state is reported, and the processor does not wait. -/
theorem settle_guardViolation {s : State} (cause : Nat) (block detail : Word) (h : Accessible s) :
    pwait (settle (guardViolation cause block detail s)) = false ∧
      Offers { plainReport .guardViolation 31 block detail s.office.clock with qualifier := cause } s
        (settle (guardViolation cause block detail s)) := by
  obtain ⟨hquiet, hwait⟩ := h
  unfold guardViolation
  rw [settle_offerReport hquiet]
  exact ⟨by rw [pwait_eventEnd, pwait_takeReport, hwait], offers_takeReport _ s⟩

/-- Settles O19: the verdict follows the state of the block written into. -/
theorem poolWriteVerdict : Obligations.PoolWriteVerdict := by
  rintro s addr v be b h hpage hlow hhigh rfl
  have hexec := exec_poolWrite v be h hpage (poolBlock_inRegion hlow hhigh)
  refine ⟨fun hrun hheld => ?_, fun hrun cause hcause => ?_, fun hs => ?_⟩
  · have hs : s.office.state = .running := by simpa [running] using hrun
    rw [hexec (by simp [poolExists, hs]), poolWrite_passed _ hs (by rw [hheld]; rfl), settle_quiet (quiet_forward _ h.1)]
  · have hs : s.office.state = .running := by simpa [running] using hrun
    refine ⟨_, hexec (by simp [poolExists, hs]), ?_⟩
    have hviolation : writeCause (blockState s ((addr.toNat - s.office.held.poolBase * 32) / 32)) = some cause := by
      obtain ⟨hb, rfl⟩ | ⟨hb, rfl⟩ := hcause <;> rw [hb] <;> rfl
    rw [poolWrite_suppressed _ hs hviolation]
    exact settle_guardViolation cause _ _ h
  · rw [hexec (by simp [poolExists, hs]), poolWrite_building _ _ hs, settle_quiet h.1]

end Sys2Proof.BlockPool

/-! SUPPORT. Writes to the control page, as the snooped words of the station table arrive (R4), and an event that forwards an
access and offers one report. -/

namespace Sys2Proof.Machine

/-- A processor write to a control-page offset is forwarded, and handed to the word's owner with both byte enables (R4). -/
theorem writeEvent_page {s : State} {off : Nat} (hoff : off < 1024) (v : Word) (be : ByteEnables) (h : Accessible s) :
    writeEvent (pageAddr s off) ⟨v, be⟩ s = .next (settle (
      if be = .both then snoop off v (forward (pageWrite s off v be) s) else forward (pageWrite s off v be) s)) := by
  obtain ⟨⟨hr, -⟩, hp⟩ := h
  rw [writeEvent_open hp, processorWrite_open hr, arriveWrite_page s hoff]

/-- Office command 1 while RUNNING is a commit (R5, R88). -/
theorem snoop_commit {s : State} (h : running s = true) : snoop 20 1 s = commitStations s := by
  simp [snoop, snoopRunning, h]

/-- In every office state offset `256 + 4k + w` is word `w` of shadow entry `k` (R87). -/
theorem snoop_stationShadow (k : StationNo) (w : Fin 4) (v : Word) (s : State) :
    snoop (256 + 4 * k.val + w.val) v s = writeShadow k w.val v s := by
  have hentry : (256 + 4 * k.val + w.val - 256) / 4 = k.val := by omega
  have hword : (256 + 4 * k.val + w.val - 256) % 4 = w.val := by omega
  unfold snoop
  rw [if_neg (by omega), if_neg (by omega), dif_neg (by omega), dif_pos (by omega)]
  simp only [hentry, hword]

/-- Forwarding touches the Store Port alone, which `Offers` leaves open. -/
theorem Offers.of_forward {r : Record} {a : Access} {e t : State} (h : Offers r (forward a e) t) : Offers r e t where
  part := by
    have hpart : { t with port := (forward a e).port, report := (forward a e).report } = forward a e := h.part
    exact congrArg (fun x : State => { x with port := e.port }) hpart
  write := h.write
  read := h.read
  badRead := h.badRead
  attn := h.attn
  accepted := h.accepted
  discarded := h.discarded

/-- An event that forwards an access and offers one report ends with the access at the Store Port and the report taken. -/
theorem settle_forward_offerReport (r : Record) (a : Access) {s : State} (h : Quiet s) :
    Forwards a (settle (offerReport r (forward a s))) ∧ Offers r s (settle (offerReport r (forward a s))) := by
  rw [settle_offerReport (quiet_forward a h)]
  refine ⟨?_, (offers_takeReport r (forward a s)).of_forward⟩
  rw [forwards_eventEnd, forwards_takeReport]
  exact .inl rfl

end Sys2Proof.Machine

/-! The obligations of the station table. -/

namespace Sys2Proof.Stations

open Sys2Proof.Machine

/-! ## The checks of a commit (R88, Table 5-3) -/

/-- Shadow entry `k` is valid and meets the refusing condition of check `i` of Table 5-3, whatever the other checks say. -/
def FailsCheck (t : Vector Station 64) (k : StationNo) (i : Nat) : Prop :=
  t[k].valid = true ∧
    ((i = 1 ∧ ∃ j : StationNo, j < k ∧ t[j].valid = true ∧ t[j].code = t[k].code) ∨
      (i = 2 ∧ 23 < t[k].line.toNat) ∨
      (i = 3 ∧ t[k].service = .diverted ∧ t[k].divert.toNat = k.val) ∨
      (i = 4 ∧ t[k].service = .diverted ∧ 64 ≤ t[k].divert.toNat) ∨
      (i = 5 ∧ t[k].service = .diverted ∧ ¬ ∃ j : StationNo, j.val = t[k].divert.toNat ∧ t[j].valid = true))

/-- An earlier valid entry has the code, as the model searches for it. -/
theorem any_earlier_code_iff (t : Vector Station 64) (k : StationNo) :
    ((List.finRange 64).any fun j => decide (j < k) && t[j].valid && t[j].code == t[k].code) = true ↔
      ∃ j : StationNo, j < k ∧ t[j].valid = true ∧ t[j].code = t[k].code := by
  simp [and_assoc]

/-- Past the table the model reads the reset entry, which is not valid. -/
theorem valid_getD_iff (t : Vector Station 64) (n : Nat) :
    (t.toList.getD n Station.reset).valid = true ↔ ∃ j : StationNo, j.val = n ∧ t[j].valid = true := by
  by_cases hn : n < 64
  · rw [List.getD_eq_getElem _ _ (by simpa using hn)]
    constructor
    · exact fun h => ⟨⟨n, hn⟩, rfl, by simpa using h⟩
    · rintro ⟨j, rfl, h⟩
      simpa using h
  · rw [List.getD_eq_default _ _ (by simp; omega)]
    constructor
    · exact fun h => absurd h (by decide)
    · rintro ⟨j, rfl, -⟩
      exact absurd j.isLt hn

/-- The model's check of a valid entry is the first that fails, or 0 where none fails. -/
theorem commitCheck_first {t : Vector Station 64} {k : StationNo} (hvalid : t[k].valid = true) :
    (commitCheck t k = 0 ∧ ∀ i, ¬ FailsCheck t k i) ∨
      (commitCheck t k ≠ 0 ∧ IsLeast {i | FailsCheck t k i} (commitCheck t k)) := by
  unfold commitCheck
  simp only [any_earlier_code_iff, valid_getD_iff]
  split_ifs with hcode hline hself hrange hinvalid
  · exact .inr ⟨by decide, ⟨hvalid, .inl ⟨rfl, hcode⟩⟩, fun i ⟨_, h⟩ => by omega⟩
  · refine .inr ⟨by decide, ⟨hvalid, .inr (.inl ⟨rfl, hline⟩)⟩, fun i ⟨_, h⟩ => ?_⟩
    simp only [hcode, and_false, false_or] at h
    omega
  · refine .inr ⟨by decide, ⟨hvalid, .inr (.inr (.inl ⟨rfl, hself⟩))⟩, fun i ⟨_, h⟩ => ?_⟩
    simp only [hcode, hline, and_false, false_or] at h
    omega
  · refine .inr ⟨by decide, ⟨hvalid, .inr (.inr (.inr (.inl ⟨rfl, hrange⟩)))⟩, fun i ⟨_, h⟩ => ?_⟩
    simp only [hcode, hline, hself, and_false, false_or] at h
    omega
  · refine .inr ⟨by decide, ⟨hvalid, .inr (.inr (.inr (.inr ⟨rfl, hinvalid⟩)))⟩, fun i ⟨_, h⟩ => ?_⟩
    simp only [hcode, hline, hself, hrange, and_false, false_or] at h
    exact h.1.ge
  · refine .inl ⟨rfl, fun i ⟨_, h⟩ => ?_⟩
    simp only [hcode, hline, hself, hrange, hinvalid, and_false, or_false] at h

/-- What the search of `commitFailure` finds at entry `k`. -/
def entryFailure (t : Vector Station 64) (k : StationNo) : Option (StationNo × Nat) :=
  if t[k].valid ∧ commitCheck t k ≠ 0 then some (k, commitCheck t k) else none

theorem commitFailure_eq (t : Vector Station 64) : commitFailure t = Fin.findSome? (entryFailure t) :=
  (Fin.findSome?_eq_findSome?_finRange (entryFailure t)).symm

/-- At an entry that fails no check nothing is found; at any other, its first failing check. -/
theorem entryFailure_cases (t : Vector Station 64) (k : StationNo) :
    (entryFailure t k = none ∧ ∀ i, ¬ FailsCheck t k i) ∨
      ∃ r, entryFailure t k = some (k, r) ∧ IsLeast {i | FailsCheck t k i} r := by
  by_cases hvalid : t[k].valid = true
  · obtain ⟨hzero, hnone⟩ | ⟨hpos, hleast⟩ := commitCheck_first hvalid
    · exact .inl ⟨if_neg fun h => h.2 hzero, hnone⟩
    · exact .inr ⟨_, if_pos ⟨hvalid, hpos⟩, hleast⟩
  · exact .inl ⟨if_neg fun h => hvalid h.1, fun _ h => hvalid h.1⟩

theorem entryFailure_eq_none_iff {t : Vector Station 64} {k : StationNo} :
    entryFailure t k = none ↔ ∀ i, ¬ FailsCheck t k i := by
  obtain ⟨hfound, hnone⟩ | ⟨r, hfound, hleast⟩ := entryFailure_cases t k
  · exact iff_of_true hfound hnone
  · exact iff_of_false (by simp [hfound]) fun h => h r hleast.1

theorem entryFailure_eq_some_iff {t : Vector Station 64} {j k : StationNo} {r : Nat} :
    entryFailure t j = some (k, r) ↔ j = k ∧ IsLeast {i | FailsCheck t j i} r := by
  obtain ⟨hfound, hnone⟩ | ⟨q, hfound, hleast⟩ := entryFailure_cases t j
  · exact iff_of_false (by simp [hfound]) fun h => hnone r h.2.1
  · rw [hfound, Option.some_inj, Prod.mk.injEq]
    exact and_congr_right fun _ => ⟨fun h => h ▸ hleast, hleast.unique⟩

/-- A commit is accepted exactly when no valid shadow entry fails a check. -/
theorem commitFailure_eq_none_iff {t : Vector Station 64} :
    commitFailure t = none ↔ ∀ k i, ¬ FailsCheck t k i := by
  rw [commitFailure_eq, Fin.findSome?_eq_none_iff]
  exact forall_congr' fun _ => entryFailure_eq_none_iff

/-- A refused commit tells the first entry that fails, and the first check it fails. -/
theorem commitFailure_eq_some_iff {t : Vector Station 64} {k : StationNo} {r : Nat} :
    commitFailure t = some (k, r) ↔ IsLeast {i | FailsCheck t k i} r ∧ ∀ j < k, ∀ i, ¬ FailsCheck t j i := by
  simp only [commitFailure_eq, Fin.findSome?_eq_some_iff, entryFailure_eq_some_iff, entryFailure_eq_none_iff]
  constructor
  · rintro ⟨_, ⟨rfl, hleast⟩, hearlier⟩
    exact ⟨hleast, hearlier⟩
  · rintro ⟨hleast, hearlier⟩
    exact ⟨k, ⟨rfl, hleast⟩, hearlier⟩

/-! ## The commit (R88, R89) -/

/-- The number of valid entries, counted along the table and along the indices. -/
theorem validCount_eq (t : Vector Station 64) :
    (t.toList.filter (fun e => e.valid)).length = ((List.finRange 64).filter (fun k => t[k].valid)).length := by
  have htable : t.toList = (List.finRange 64).map (fun k => t[k]) := by
    apply List.ext_getElem <;> simp
  rw [htable, List.filter_map, List.length_map]
  rfl

/-- An accepted commit: the active table takes the shadow, and the report tells the number of valid entries. -/
theorem commitStations_accepted {s : State} (h : commitFailure s.router.shadow = none) :
    commitStations s = offerReport
      (plainReport .commit 31
        (BitVec.ofNat 16 ((List.finRange 64).filter (fun k => s.router.shadow[k].valid)).length) 0 s.office.clock)
      { s with router := { active := s.router.shadow, shadow := s.router.shadow } } := by
  unfold commitStations
  rw [h, ← validCount_eq]
  rfl

/-- A refused commit only reports the entry and the reason. -/
theorem commitStations_refused {s : State} {k : StationNo} {r : Nat} (h : commitFailure s.router.shadow = some (k, r)) :
    commitStations s =
      offerReport (plainReport .commit 31 (BitVec.ofNat 16 k.val) (BitVec.ofNat 16 r) s.office.clock) s := by
  unfold commitStations
  rw [h]
  rfl

/-- While RUNNING a commit is forwarded and taken (R4, R5); where it comes to one report, that is offered in state `e`. -/
theorem exec_commitStations {s e : State} {r : Record} (h : Accessible s) (hrun : running s = true) (he : Quiet e)
    (hoffer : commitStations (forward (pageWrite s 20 1 .both) s) =
      offerReport r (forward (pageWrite s 20 1 .both) e)) :
    ∃ t, exec (.commitStations .both) s = .next t ∧ Forwards (pageWrite s 20 1 .both) t ∧ Offers r e t := by
  refine ⟨_, ?_, settle_forward_offerReport r (pageWrite s 20 1 .both) he⟩
  have hsnoop := snoop_commit (s := forward (pageWrite s 20 1 .both) s) hrun
  show writeEvent (pageAddr s 20) ⟨1, .both⟩ s = _
  rw [writeEvent_page (by decide) 1 .both h, if_pos rfl, hsnoop, hoffer]

/-- Settles O34: the model's search is the first failing entry with its first failing check, and either outcome is one
report offered after the write is forwarded. -/
theorem commit : Obligations.Commit := by
  refine ⟨fun t fails hfails => ?_, fun s h hrun => ⟨fun hok => ?_, fun k r hbad => ?_⟩⟩
  · obtain rfl : fails = FailsCheck t := funext₂ fun k i => propext (hfails k i)
    refine ⟨commitFailure_eq_none_iff, fun k r => commitFailure_eq_some_iff.trans ?_⟩
    have hfirst : IsLeast {i | FailsCheck t k i} r ↔ FailsCheck t k r ∧ ∀ i, i < r → ¬ FailsCheck t k i :=
      minimal_iff_isLeast.symm.trans minimal_iff_forall_lt
    rw [hfirst, and_assoc]
    exact and_congr_right fun _ => and_congr_right fun _ => forall_congr' fun _ => forall_comm
  · exact exec_commitStations h hrun h.1 (commitStations_accepted (s := forward _ s) hok)
  · exact exec_commitStations h hrun h.1 (commitStations_refused (s := forward _ s) hbad)

/-! ## Shadow writes (R87) -/

/-- The two bits of the service code; code 3 is OUT OF SERVICE. -/
theorem parseService_toNat (c : BitVec 2) :
    parseService c.toNat = if c = 0#2 then .inService else if c = 2#2 then .diverted else .outOfService := by
  revert c
  decide

/-- Word 0 carries the valid bit, the service and the line (Table 5-2). -/
theorem shadowWrite_word0 (e : Station) (v : Word) : shadowWrite e 0 v = { e with
    valid := v.getLsbD 15, line := v.extractLsb' 0 5,
    service := if v.extractLsb' 8 2 = 0#2 then .inService
      else if v.extractLsb' 8 2 = 2#2 then .diverted else .outOfService } := by
  rw [← parseService_toNat]
  rfl

/-- A shadow write in any office state: forwarded, and with both byte enables handed to the entry's word (R4, R87). -/
theorem exec_stationShadowWrite {s : State} (k : StationNo) (w : Fin 4) (v : Word) (be : ByteEnables)
    (h : Accessible s) :
    exec (.stationShadowWrite k w v be) s = .next (eventEnd (
      if be = .both then writeShadow k w.val v (forward (pageWrite s (256 + 4 * k.val + w.val) v be) s)
      else forward (pageWrite s (256 + 4 * k.val + w.val) v be) s)) := by
  show writeEvent (pageAddr s (256 + 4 * k.val + w.val)) ⟨v, be⟩ s = _
  rw [writeEvent_page (by omega) v be h, snoop_stationShadow, settle_quiet]
  split_ifs <;> exact h.1

/-- Settles O35: the write reaches its entry in every office state, and word by word `shadowWrite` gives the entry told. -/
theorem stationShadowWrite : Obligations.StationShadowWrite := by
  intro s k w v e h he
  have hentry : shadowWrite s.router.shadow[k] w.val v = e := by
    obtain ⟨rfl, rfl⟩ | ⟨rfl, rfl⟩ | ⟨rfl, rfl⟩ | ⟨rfl, rfl⟩ := he
    · exact shadowWrite_word0 _ v
    all_goals rfl
  refine ⟨?_, fun be hbe => ?_⟩
  · rw [exec_stationShadowWrite k w v .both h, if_pos rfl, ← hentry]
    rfl
  · rw [exec_stationShadowWrite k w v be h, if_neg hbe]

end Sys2Proof.Stations

/-! The obligations of the deliveries and their precedence. -/

namespace Sys2Proof.Deliveries

open Sys2Proof.Machine

/-! ## The effective class (R107) -/

/-- Without an ageing interval, and for class 0, nothing ages (R107, item 2). -/
theorem effectiveClass_of_unaged {s : State} {e : Delivery} (h : s.office.held.ageing = 0 ∨ e.cls = 0) :
    effectiveClass s e = e.cls :=
  if_pos h

/-- Items 1 and 3 of R107. The truncated difference is the waited time: it is 0 where the clock is behind the queued time. -/
theorem effectiveClass_of_aged {s : State} {e : Delivery} (hage : s.office.held.ageing ≠ 0) (hcls : e.cls ≠ 0) :
    effectiveClass s e =
      max 1 (e.cls - (s.office.clock.toNat - e.queuedTime.toNat) / s.office.held.ageing) := by
  have hwaited : (if e.queuedTime.toNat ≤ s.office.clock.toNat
      then s.office.clock.toNat - e.queuedTime.toNat else 0) = s.office.clock.toNat - e.queuedTime.toNat := by
    split_ifs <;> omega
  rw [← hwaited]
  exact if_neg (not_or.mpr ⟨hage, hcls⟩)

/-- A class that is not 0 stays between 1 and the declared class. -/
theorem effectiveClass_mem_Icc {s : State} {e : Delivery} (hcls : e.cls ≠ 0) :
    effectiveClass s e ∈ Set.Icc 1 e.cls := by
  have hpos : 1 ≤ e.cls := Nat.one_le_iff_ne_zero.mpr hcls
  by_cases hage : s.office.held.ageing = 0
  · rw [effectiveClass_of_unaged (.inl hage)]
    exact ⟨hpos, le_rfl⟩
  · rw [effectiveClass_of_aged hage hcls]
    exact ⟨le_max_left .., max_le hpos (Nat.sub_le ..)⟩

theorem effectiveClass_le (s : State) (e : Delivery) : effectiveClass s e ≤ e.cls := by
  by_cases hcls : e.cls = 0
  · exact (effectiveClass_of_unaged (.inr hcls)).le
  · exact (effectiveClass_mem_Icc hcls).2

theorem effectiveClass_eq_zero_iff {s : State} {e : Delivery} : effectiveClass s e = 0 ↔ e.cls = 0 := by
  constructor
  · intro hzero
    by_contra hcls
    exact Nat.one_le_iff_ne_zero.mp (effectiveClass_mem_Icc hcls).1 hzero
  · intro hcls
    rw [effectiveClass_of_unaged (.inr hcls), hcls]

/-- With the clock set back past the queued time, the entry has waited for no interval (R59, R107). -/
theorem effectiveClass_of_clock_lt {s : State} {e : Delivery} (h : s.office.clock.toNat < e.queuedTime.toNat) :
    effectiveClass s e = e.cls := by
  by_cases hunaged : s.office.held.ageing = 0 ∨ e.cls = 0
  · exact effectiveClass_of_unaged hunaged
  · obtain ⟨hage, hcls⟩ := not_or.mp hunaged
    rw [effectiveClass_of_aged hage hcls, Nat.sub_eq_zero_of_le h.le, Nat.zero_div, Nat.sub_zero]
    exact max_eq_right (Nat.one_le_iff_ne_zero.mpr hcls)

/-- An entry that has waited for `q` whole intervals is `q` classes better, and 1 at best. -/
theorem effectiveClass_of_intervals {s : State} {e : Delivery} {q : Nat} (hcls : e.cls ≠ 0)
    (hlow : q * s.office.held.ageing ≤ s.office.clock.toNat - e.queuedTime.toNat)
    (hhigh : s.office.clock.toNat - e.queuedTime.toNat < (q + 1) * s.office.held.ageing) :
    effectiveClass s e = if q + 1 ≤ e.cls then e.cls - q else 1 := by
  have hage : s.office.held.ageing ≠ 0 := by
    intro hzero
    simp [hzero] at hhigh
  have hquotient : (s.office.clock.toNat - e.queuedTime.toNat) / s.office.held.ageing = q :=
    Nat.div_eq_of_lt_le hlow hhigh
  rw [effectiveClass_of_aged hage hcls, hquotient]
  split_ifs <;> omega

/-- Settles O38: each part is one of the rules above, and the quotient is the number of whole intervals waited. -/
protected theorem effectiveClass : Obligations.EffectiveClass := fun s e =>
  ⟨effectiveClass_le s e, effectiveClass_eq_zero_iff, fun hage => effectiveClass_of_unaged (.inl hage),
    effectiveClass_of_clock_lt,
    fun _ _ hcls _ hlow hhigh => effectiveClass_of_intervals hcls.ne' hlow hhigh⟩

end Sys2Proof.Deliveries

/-! The obligations of the reports. -/

namespace Sys2Proof.Reports

open Sys2Proof.Machine

/-! ## The report read index (R184) -/

/-- Offset 19 of the control page is the report read index, taken only while RUNNING (R5, R184). -/
theorem snoop_readIndex {s : State} (v : Word) (h : running s = true) : snoop 19 v s = readIndex v s := by
  simp [snoop, snoopRunning, h]

/-- With at most a ring of records held behind it, the value is accepted. -/
theorem readIndex_accepted {s : State} {v : Word}
    (h : (s.report.write - v).toNat + (s.report.fill - s.report.write).toNat ≤ ringSize s) : readIndex v s =
    { s with report := { s.report with read := v, overflow := false, badRead := false, tally := 0 } } := if_pos h

/-- A value that would hold more than the ring is ignored, and only told by the bad read index. -/
theorem readIndex_ignored {s : State} {v : Word}
    (h : ringSize s < (s.report.write - v).toNat + (s.report.fill - s.report.write).toNat) :
    readIndex v s = { s with report := { s.report with badRead := true } } := if_neg (Nat.not_le.2 h)

/-- Neither outcome of a read-index write offers a report or asks for a walk. -/
theorem quiet_readIndex {s : State} (v : Word) (h : Quiet s) : Quiet (readIndex v s) := by
  unfold readIndex
  split <;> exact h

/-- The Store Port has no part in the test of a read-index write, so the write may as well be forwarded after it. -/
theorem readIndex_forward (v : Word) (a : Access) (s : State) :
    readIndex v (forward a s) = forward a (readIndex v s) := by
  unfold readIndex
  rw [apply_ite (forward a)]
  rfl

/-- While RUNNING a read-index write is forwarded, whatever its outcome, and nothing else comes of it (R4, R184). -/
theorem exec_reportReadIndex {s : State} (v : Word) (h : Accessible s) (hrun : running s = true) :
    exec (.reportReadIndex v .both) s = .next (eventEnd (forward (pageWrite s 19 v .both) (readIndex v s))) := by
  have hsnoop := snoop_readIndex (s := forward (pageWrite s 19 v .both) s) v hrun
  show writeEvent (pageAddr s 19) ⟨v, .both⟩ s = _
  rw [writeEvent_page (by decide) v .both h, if_pos rfl, hsnoop, readIndex_forward,
    settle_quiet (quiet_forward _ (quiet_readIndex v h.1))]

/-- Settles O58: the write is forwarded, and the ring size parts the two outcomes of the read index. -/
theorem reportReadIndex : Obligations.ReportReadIndex := by
  refine fun s v h hrun => ⟨fun hfits => ?_, fun hexceeds => ?_⟩
  · rw [exec_reportReadIndex v h hrun, readIndex_accepted hfits]
  · rw [exec_reportReadIndex v h hrun, readIndex_ignored hexceeds]

end Sys2Proof.Reports

/-! SUPPORT. What an operation inside an event keeps of the rest of the part, whatever it is: `KeptInside` lists the changes
that such operations are made of, and a predicate closed under them is kept by each of the shared operations. The lines a
transmitter operation may act on are those named by the caller and those that are awake. -/

namespace Sys2Proof.Machine

-- The proofs of this part one after another: together, the stacks of their threads exceed the memory limit.
set_option Elab.async false

/-- The transmitter is IDLE or has a delivery in hand: what the tables must find before they act on a line. -/
abbrev Awake (t : Transmitter) : Prop := t.hand ≠ none ∨ t.state = .idle

/-- The same accesses are with the Store Port. -/
def SameAccess (p q : StorePort) : Prop :=
  ∀ a, (q.fwd = some a ∨ q.cycle = some (.forwarded a)) ↔ (p.fwd = some a ∨ p.cycle = some (.forwarded a))

/-- A change of a transmitter that takes it to OFF only from there. -/
def KeepsOn (f : Transmitter → Transmitter) : Prop := ∀ t, (f t).state = .off → t.state = .off

/-- `P` is closed under what the Store Port, the Report Unit and the Chain Walker change of themselves. -/
structure KeptWork (P : State → Prop) : Prop where
  port : ∀ {u : State}, P u → ∀ p, SameAccess u.port p → P { u with port := p }
  report : ∀ {u : State}, P u → ∀ r, P { u with report := r }
  walker : ∀ {u : State}, P u → ∀ w, P { u with walker := w }
  count : ∀ {u : State}, P u → ∀ k, P { u with freeCount := k }

/-- `P` is closed under the changes that an operation inside an event is made of, but for those that touch more of a line
than its receiver and its transmitter; `Free n` says that the transmitter of line `n` may be changed, but not be put OFF. -/
structure KeptCalm (Free : LineNo → Prop) (P : State → Prop) : Prop extends KeptWork P where
  pool : ∀ {u : State}, P u → ∀ q, P { u with pool := q }
  du : ∀ {u : State}, P u → ∀ d, P { u with du := d }
  serial : ∀ {u : State}, P u → ∀ k, P { u with office := { u.office with serial := k } }
  rx : ∀ {u : State}, P u → ∀ n f, P (updRx n f u)
  transfer : ∀ {u : State}, P u → ∀ n, P (transferSettings n u)
  transmitter : ∀ {u : State}, P u → ∀ {n}, Free n → ∀ f, KeepsOn f → P (updTx n f u)
  awake : ∀ {u : State}, P u → ∀ {n : LineNo}, Awake (u.lines[n.val]).tx → Free n

/-- The same, where a line that is `Free` may be changed at will. -/
structure KeptBelow (Free : LineNo → Prop) (P : State → Prop) : Prop extends KeptCalm Free P where
  line : ∀ {u : State}, P u → ∀ {n}, Free n → ∀ f, P (updLine n f u)

/-- The same, where the property also outlasts that a post leaves the post queue (R172). -/
structure KeptInside (Free : LineNo → Prop) (P : State → Prop) : Prop extends KeptBelow Free P where
  post : ∀ {u : State}, P u → P { u with post := u.post.tail }

/-- What every round of a fold keeps, the fold keeps. -/
theorem foldl_keeps {α : Type} (P : State → Prop) {f : State → α → State} (hf : ∀ (u : State) (a : α), P u → P (f u a))
    (l : List α) {u : State} (hu : P u) : P (l.foldl f u) := by
  induction l generalizing u with
  | nil => exact hu
  | cons a l ih => exact ih (hf u a hu)

variable {Free : LineNo → Prop} {P : State → Prop} {u : State} {n : LineNo}

namespace KeptWork

/-! ## The Store Port -/

theorem startCycle (h : KeptWork P) (hu : P u) : P (startCycle u) := by
  rw [startCycle_eq]; exact h.port hu _ (fun a => forwards_startCycle a u)

theorem place (h : KeptWork P) (hu : P u) (r : Req) : P (place r u) := by
  rw [place_eq]; exact h.port hu _ (fun a => forwards_place a r u)

theorem waitFor (h : KeptWork P) (hu : P u) (i : Issuer) : P (waitFor i u) := by
  unfold Machine.waitFor; split
  · exact hu
  · exact h.port hu _ (fun _ => Iff.rfl)

theorem leaveWaiting (h : KeptWork P) (hu : P u) (i : Issuer) : P (leaveWaiting i u) := h.port hu _ (fun _ => Iff.rfl)

theorem pump (h : KeptWork P) (hu : P u) (i : Issuer) (next : State → Option Req) {placed : State → State}
    (hp : ∀ {u : State}, P u → P (placed u)) (k : Nat) : P (pump i next placed k u) := by
  induction k generalizing u with
  | zero => exact hu
  | succ k ih =>
    unfold Machine.pump
    split
    · exact hu
    · split
      · exact ih (hp (h.place hu _))
      · exact h.waitFor hu i

/-! ## Reports and walk requests -/

theorem pumpReport (h : KeptWork P) (hu : P u) : P (pumpReport u) :=
  h.pump hu _ _ (fun hu => h.report hu _) _

theorem acceptReport (h : KeptWork P) (hu : P u) (r : Record) : P (acceptReport r u) := by
  rw [acceptReport_eq]; exact h.report hu _

theorem takeReport (h : KeptWork P) (hu : P u) (r : Record) : P (takeReport r u) :=
  h.pumpReport (h.acceptReport hu r)

theorem offerReport (h : KeptWork P) (hu : P u) (r : Record) : P (offerReport r u) := h.report hu _

theorem takeUntil (h : KeptWork P) (hu : P u) (p : Offer → Bool) : P (takeUntil p u) := by
  unfold Machine.takeUntil; dsimp only
  split
  · exact foldl_keeps P (fun _ o hu => h.takeReport hu o.record) _ 
      (h.report (h.count hu (if oneOwner u.report.offers then u.freeCount else u.freeCount + 1)) _)
  · exact hu

theorem askWalk (h : KeptWork P) (hu : P u) (r : WalkRequest) : P (askWalk r u) := h.walker hu _

theorem pumpWalkerRounds (h : KeptWork P) (hu : P u) (k : Nat) : P (pumpWalkerRounds k u) := by
  induction k generalizing u with
  | zero => exact hu
  | succ k ih =>
    unfold Machine.pumpWalkerRounds
    split
    · exact hu
    · split
      · exact hu
      · split
        · exact ih (h.walker (h.place hu _) _)
        · exact h.waitFor (h.walker hu _) _

theorem pumpWalker (h : KeptWork P) (hu : P u) : P (pumpWalker u) := h.pumpWalkerRounds hu _

theorem dropLinkWrites (h : KeptWork P) (hu : P u) (b : Nat) : P (dropLinkWrites b u) := by
  rw [dropLinkWrites_eq]
  exact h.port (h.walker hu { u.walker with
    links := u.walker.links.filter (fun l => l.target != b), offered := (Machine.dropLinkWrites b u).walker.offered }) _ (fun _ => Iff.rfl)

end KeptWork

namespace KeptCalm

/-! ## Updates -/

theorem tx (h : KeptCalm Free P) (hn : Free n) (hu : P u) (f : Transmitter → Transmitter)
    (hf : KeepsOn f := by simp [KeepsOn]) : P (updTx n f u) := h.transmitter hu hn f hf

theorem asm (h : KeptCalm Free P) (hu : P u) (n : LineNo) (f : Assembly → Assembly) : P (updAsm n f u) := h.rx hu _ _

/-! ## The Pool Unit -/

theorem setBlock (h : KeptCalm Free P) (hu : P u) (b : Nat) (v : BlockState) : P (setBlock b v u) := h.pool hu _

theorem takeFree (h : KeptCalm Free P) (hu : P u) {v : BlockState} {b : Nat} {t : State}
    (e : takeFree v u = some (b, t)) : P t := by
  unfold Machine.takeFree at e
  split at e
  · cases e
  · cases e
    exact h.dropLinkWrites (h.pool (h.pool hu _) _) _

theorem requestBlock (h : KeptCalm Free P) (hu : P u) (n : LineNo) : P (requestBlock n u).2 := by
  unfold Machine.requestBlock
  split
  · next e => exact h.takeFree hu e
  · dsimp only
    split
    · exact hu
    · exact h.pool hu _

theorem joinFree (h : KeptCalm Free P) (hu : P u) (b : Nat) : P (joinFree b u) := by
  unfold Machine.joinFree; dsimp only
  split
  · exact h.pool (h.pool hu _) _
  · exact h.pumpWalker (h.walker (h.pool (h.pool hu _) _) _)

theorem claimBlock (h : KeptCalm Free P) (hu : P u) : P (claimBlock u).2 := by
  unfold Machine.claimBlock
  split
  · next e => exact h.takeFree hu e
  · exact hu

/-! ## The Delivery Unit -/

theorem rewritePlaced (h : KeptCalm Free P) (hu : P u) : P (rewritePlaced u) := by
  unfold Machine.rewritePlaced
  split
  · exact hu
  · dsimp only
    split
    · exact h.report (h.du hu _) _
    · exact h.walker (h.report (h.du hu _) _) _

theorem pumpDelivery (h : KeptCalm Free P) (hu : P u) : P (pumpDelivery u) :=
  h.pump hu _ _ (fun hu => h.rewritePlaced hu) _

theorem reportWithoutCount (h : KeptCalm Free P) (hu : P u) (t : TransitNo) (r : Record) :
    P (reportWithoutCount t r u) := by
  unfold Machine.reportWithoutCount
  split
  · exact h.du hu _
  · exact h.report hu _

theorem changeCount (h : KeptCalm Free P) (hu : P u) (t : TransitNo) (c : Nat) (rs : List Record) :
    P (changeCount t c rs u) := h.pumpDelivery (h.du (h.du hu _) _)

theorem clearActive (h : KeptCalm Free P) (hu : P u) (n : LineNo) (d : DeliveryNo) : P (clearActive n d u) := by
  unfold Machine.clearActive; split
  · exact h.du hu _
  · exact hu

theorem freeEntry (h : KeptCalm Free P) (hu : P u) (d : DeliveryNo) (rs : List Record) : P (freeEntry d rs u) :=
  h.changeCount (h.clearActive (h.du (h.du hu _) _) _ _) _ _ _

theorem cancelEntry (h : KeptCalm Free P) (hu : P u) (d : DeliveryNo) : P (cancelEntry d u) := h.freeEntry hu _ _

theorem returnToHead (h : KeptCalm Free P) (hu : P u) (d : DeliveryNo) (f : Delivery → Delivery) :
    P (returnToHead d f u) := h.clearActive (h.du (h.du hu _) _) _ _

theorem interruptEntry (h : KeptCalm Free P) (hu : P u) (d : DeliveryNo) (r : Nat) (b : Bool) :
    P (interruptEntry d r b u) := by
  unfold Machine.interruptEntry; split
  · exact h.cancelEntry hu d
  · exact h.reportWithoutCount (h.returnToHead hu _ _) _ _

theorem failedTryEntry (h : KeptCalm Free P) (hu : P u) (d : DeliveryNo) (b : Bool) : P (failedTryEntry d b u) := by
  unfold Machine.failedTryEntry
  split
  · exact h.cancelEntry hu d
  · split
    · exact h.reportWithoutCount (h.returnToHead hu _ _) _ _
    · exact h.freeEntry (h.reportWithoutCount hu _ _) _ _

theorem setAsideEntry (h : KeptCalm Free P) (hu : P u) (d : DeliveryNo) : P (setAsideEntry d u) := by
  unfold Machine.setAsideEntry; dsimp only
  split
  · exact h.cancelEntry hu d
  · split
    · exact h.clearActive (h.du hu _) _ _
    · exact h.freeEntry hu _ _

theorem splitUnanswered (h : KeptCalm Free P) (hu : P u) (d : DeliveryNo) : P (splitUnanswered d u) := by
  unfold Machine.splitUnanswered; dsimp only
  split
  · exact foldl_keeps P (fun _ m hu => h.reportWithoutCount hu _ _) _ (h.du hu _)
  · split
    · exact foldl_keeps P (fun _ m hu => h.reportWithoutCount hu _ _) _ (h.du hu _)
    · exact h.changeCount (h.du (h.du hu _) _) _ _ _

theorem makeActive (h : KeptCalm Free P) (hu : P u) (n : LineNo) (d : DeliveryNo) : P (makeActive n d u) :=
  h.du (h.du (h.du hu _) _) _

/-! ## Transmitters -/

theorem pumpTx (h : KeptCalm Free P) (hn : Free n) (hu : P u) : P (pumpTx n u) :=
  h.pump hu _ _ (fun hu => h.tx hn hu _) _

theorem offerReads (h : KeptCalm Free P) (hn : Free n) (hu : P u) (rs : List Req) : P (offerReads n rs u) :=
  h.pumpTx hn (h.tx hn hu _)

theorem advanceText (h : KeptCalm Free P) (hn : Free n) (hu : P u) : P (advanceText n u) := by
  unfold Machine.advanceText; dsimp only
  split
  · exact h.offerReads hn (h.tx hn hu _) _
  · exact h.tx hn hu _

theorem beginNext (h : KeptCalm Free P) (hn : Free n) (hu : P u) : P (beginNext n u) := by
  unfold Machine.beginNext; dsimp only
  split
  · exact h.tx hn (h.tx hn hu _) _
  · exact h.tx hn (h.tx hn hu _) _
  · split
    · split
      · exact h.tx hn (h.tx hn hu _) _
      · split
        · split
          · exact h.advanceText hn (h.tx hn (h.tx hn hu _) _)
          · exact h.tx hn hu _
        · exact h.tx hn hu _
    · exact h.tx hn hu _

theorem enterSending (h : KeptCalm Free P) (hn : Free n) (hu : P u) (k : Hand) : P (enterSending n k u) :=
  h.offerReads hn (h.tx hn hu _) _

theorem takeDelivery (h : KeptCalm Free P) (hn : Free n) (hu : P u) (d : DeliveryNo) : P (takeDelivery n d u) := by
  unfold Machine.takeDelivery; dsimp only
  split
  · exact h.tx hn (h.tx hn (h.makeActive hu _ _) _) _
  · exact h.enterSending hn (h.tx hn (h.makeActive hu _ _) _) _

theorem selectOr (h : KeptCalm Free P) (hn : Free n) (hu : P u) {f : State → State} (hf : ∀ {u : State}, P u → P (f u)) :
    P (selectOr n f u) := by
  unfold Machine.selectOr; split
  · exact h.takeDelivery hn hu _
  · exact hf hu

theorem tellQueue (h : KeptCalm Free P) (hn : Free n) (hu : P u) : P (tellQueue n u) := by
  unfold Machine.tellQueue; split
  · exact h.tx hn hu _
  · exact hu

theorem idleOccasion (h : KeptCalm Free P) (hn : Free n) (hu : P u) : P (idleOccasion n u) := by
  unfold Machine.idleOccasion; split
  · exact h.selectOr hn hu (fun hu => hu)
  · exact h.tellQueue hn hu

theorem arriveIdle (h : KeptCalm Free P) (hn : Free n) (hu : P u) : P (arriveIdle n u) := by
  unfold Machine.arriveIdle; split
  · exact h.tx hn hu _
  · exact h.idleOccasion hn (h.tx hn hu _)

theorem transferIfIdle (h : KeptCalm Free P) (hu : P u) (n : LineNo) : P (transferIfIdle n u) := by
  unfold Machine.transferIfIdle; split
  · exact h.transfer hu _
  · exact hu

theorem enterIdle (h : KeptCalm Free P) (hn : Free n) (hu : P u) : P (enterIdle n u) := by
  unfold Machine.enterIdle; split
  · exact h.tx hn hu _
  · exact h.arriveIdle hn (h.transferIfIdle (h.tx hn hu _) _)

theorem checkIdlePoint (h : KeptCalm Free P) (hu : P u) (n : LineNo) : P (checkIdlePoint n u) := by
  unfold Machine.checkIdlePoint; dsimp only
  split
  · split
    · next hidle => exact h.arriveIdle (h.awake (h.transfer hu n) (.inr hidle)) (h.transfer hu n)
    · exact h.transfer hu n
  · exact hu

theorem dropHand (h : KeptCalm Free P) (hn : Free n) (hu : P u) : P (dropHand n u) :=
  h.leaveWaiting (h.tx hn (h.tx hn hu _) _) _

theorem deferredRequest (h : KeptCalm Free P) (hn : Free n) (hu : P u) {t : State}
    (e : deferredRequest n u = some t) : P t := by
  unfold Machine.deferredRequest at e; dsimp only at e
  split at e
  · cases e
  · split at e
    · cases e; unfold failTryToHead; exact h.enterIdle hn (h.tx hn (h.dropHand hn (h.failedTryEntry hu _ _)) _)
    · split at e
      · cases e; unfold cancelAtBoundary; exact h.tx hn (h.dropHand hn (h.cancelEntry hu _)) _
      · split at e
        · cases e; unfold preemptVictim; exact h.tx hn (h.dropHand hn (h.interruptEntry hu _ _ _)) _
        · cases e

theorem deferredOr (h : KeptCalm Free P) (hn : Free n) (hu : P u) : P ((Machine.deferredRequest n u).getD u) := by
  cases e : Machine.deferredRequest n u with
  | none => exact hu
  | some t => exact h.deferredRequest hn hu e

theorem preemptionTest (h : KeptCalm Free P) (hu : P u) (n : LineNo) : P (preemptionTest n u) := by
  unfold Machine.preemptionTest; dsimp only
  split
  · exact hu
  · next k hk =>
    have hn : Free n := h.awake hu (.inl (by rw [show (u.lines[n.val]).tx.hand = some k from hk]; simp))
    split
    · split
      · exact h.deferredOr hn (h.tx hn hu _)
      · exact h.tx hn hu _
    · exact hu

theorem enqueue (h : KeptCalm Free P) (hu : P u) (d : DeliveryNo) : P (enqueue d u) := by
  have hq : P (updQueue (u.du.entries[d]).line (fun q => q ++ [d]) u) := h.du hu _
  unfold Machine.enqueue; dsimp only
  generalize updQueue (u.du.entries[d]).line (fun q => q ++ [d]) u = v at hq ⊢
  have ht : P (if (u.du.entries[d]).cls = 0 then Machine.preemptionTest (u.du.entries[d]).line v else v) := by
    split
    · exact h.preemptionTest hq _
    · exact hq
  split
  · next hidle => exact h.idleOccasion (h.awake hq (.inr hidle)) ht
  · exact ht

theorem releaseWaiting (h : KeptCalm Free P) (hu : P u) : P (releaseWaiting u) :=
  foldl_keeps P (fun _ d hu => by
    unfold releaseOne; dsimp only
    split
    · exact h.enqueue (h.du hu _) _
    · exact hu) _ hu

/-! ## Routing -/

theorem makeRouted (h : KeptCalm Free P) (hu : P u) (m : MessageRecord) (plan : List Planned) (t : TransitNo) :
    P (makeRouted m plan t u) := by
  unfold Machine.makeRouted makeDeliveries; dsimp only
  exact h.offerReport (h.changeCount
    (foldl_keeps P (fun _ _ hu => h.enqueue hu _) _ (foldl_keeps P (fun _ _ hu => h.du hu _) _ (h.du hu _))) _ _ _) _

theorem routeMessage (h : KeptCalm Free P) (hu : P u) (m : MessageRecord) : P (routeMessage m u) := by
  unfold Machine.routeMessage; dsimp only
  split
  · exact h.askWalk hu _
  · split
    · exact h.askWalk hu _
    · split
      · exact h.askWalk hu _
      · exact h.makeRouted hu _ _ _

/-! ## Receivers -/

theorem handOff (h : KeptCalm Free P) (hu : P u) (n : LineNo) : P (handOff n u) := by
  unfold Machine.handOff; dsimp only
  refine h.checkIdlePoint (h.rx ?_ _ _) _
  split
  · exact h.askWalk hu _
  · split
    · exact h.askWalk hu _
    · exact h.routeMessage hu _

theorem rxPlaced (h : KeptCalm Free P) (hu : P u) (n : LineNo) (p : Purpose) : P (rxPlaced n p u) := by
  unfold Machine.rxPlaced; split
  · exact h.handOff hu _
  · exact hu

theorem rxOffer (h : KeptCalm Free P) (hu : P u) (n : LineNo) (r : Req) : P (rxOffer n r u) := by
  unfold Machine.rxOffer; split
  · exact h.rxPlaced (h.place hu _) _ _
  · exact h.waitFor (h.rx hu _ _) _

theorem assignBlock (h : KeptCalm Free P) (hu : P u) (n : LineNo) (b : Nat) : P (assignBlock n b u) := by
  unfold Machine.assignBlock; dsimp only
  split
  · exact h.asm hu _ _
  · exact h.rxOffer (h.asm hu _ _) _ _

theorem askBlock (h : KeptCalm Free P) (hu : P u) (n : LineNo) : P (askBlock n u) := by
  have hr := h.requestBlock hu n
  unfold Machine.askBlock
  split
  · next e => rw [e] at hr; exact h.assignBlock hr _ _
  · next e => rw [e] at hr; exact hr

theorem ensureBlock (h : KeptCalm Free P) (hu : P u) (n : LineNo) : P (ensureBlock n u) := by
  unfold Machine.ensureBlock; split
  · exact h.askBlock hu _
  · exact hu

theorem storeByte (h : KeptCalm Free P) (hu : P u) (n : LineNo) (b : Byte) : P (storeByte n b u) :=
  h.rxOffer (h.asm hu _ _) _ _

theorem rxWork (h : KeptCalm Free P) (hu : P u) {n : LineNo} {t : State} (e : rxWork n u = some t) : P t := by
  unfold Machine.rxWork at e; dsimp only at e
  split at e
  · cases e
  · split at e
    · split at e
      · cases e; exact h.askBlock hu _
      · cases e; exact h.storeByte (h.asm hu _ _) _ _
    · split at e
      · cases e; exact h.rxOffer (h.rx hu _ _) _ _
      · cases e

theorem rxContinue (h : KeptCalm Free P) (hu : P u) (k : Nat) (n : LineNo) : P (rxContinue k n u) := by
  induction k generalizing u with
  | zero => exact hu
  | succ k ih =>
    unfold Machine.rxContinue; split
    · exact hu
    · next e => exact ih (h.rxWork hu e)

theorem returnBlock (h : KeptCalm Free P) (hu : P u) (b : Nat) : P (returnBlock b u) := by
  unfold Machine.returnBlock; split
  · exact h.joinFree hu _
  · exact h.rxContinue (h.assignBlock (h.pool (h.pool hu _) _) _ _) _ _

theorem afterStore (h : KeptCalm Free P) (hu : P u) (n : LineNo) (c : Code) (b : Bool) : P (afterStore n c b u) :=
  h.rxContinue (h.rx hu _ _) _ _

theorem takeHunting (h : KeptCalm Free P) (hu : P u) (n : LineNo) (e : FifoEntry) : P (takeHunting n e u) := by
  unfold Machine.takeHunting; dsimp only
  split
  · exact h.rxContinue (h.rx (h.serial (h.rx hu _ _) _) _ _) _ _
  · exact h.rx hu _ _

theorem takeMessage (h : KeptCalm Free P) (hu : P u) (n : LineNo) (e : FifoEntry) : P (takeMessage n e u) := by
  unfold Machine.takeMessage; dsimp only
  split
  · exact h.afterStore (h.rx hu _ _) _ _ _
  · have hb := h.ensureBlock hu n
    generalize Machine.ensureBlock n u = v at hb ⊢
    split
    · exact h.afterStore (h.storeByte (h.rx hb _ _) _ _) _ _ _
    · exact hb

theorem takeEntry (h : KeptCalm Free P) (hu : P u) (n : LineNo) : P (takeEntry n u) := by
  unfold Machine.takeEntry
  split
  · exact hu
  · next e _ _ =>
    have hg : P (if e.gapBefore then Machine.rxContinue rxRounds n (updRx n gapStep u) else u) := by
      split
      · exact h.rxContinue (h.rx hu _ _) _ _
      · exact hu
    dsimp only
    generalize (if e.gapBefore then Machine.rxContinue rxRounds n (updRx n gapStep u) else u) = v at hg ⊢
    split
    · split
      · exact h.takeHunting hg _ _
      · exact h.takeMessage hg _ _
    · exact hg

theorem giveAbandoned (h : KeptCalm Free P) (hu : P u) (n : LineNo) : P (giveAbandoned n u) :=
  foldl_keeps P (fun _ _ hu => h.askWalk hu _) _ (h.rx hu _ _)

theorem rxCompleted (h : KeptCalm Free P) (hu : P u) (n : LineNo) : P (rxCompleted n u) :=
  h.giveAbandoned (h.rx hu _ _) _

theorem abandonChain (h : KeptCalm Free P) (hu : P u) (n : LineNo) : P (abandonChain n u) := by
  have h1 : P (Machine.leaveWaiting (.receiver n) (leaveStarved n (updRx n (fun r => { r with unplaced := none }) u))) :=
    h.leaveWaiting (h.pool (h.rx hu _ _) _) _
  unfold Machine.abandonChain; dsimp only
  generalize Machine.leaveWaiting _ _ = v at h1 ⊢
  have h2 : P (if hasUnlinked (u.lines[n]).rx then Machine.returnBlock ((u.lines[n]).rx.asm.current.getD 0) v else v) := by
    split
    · exact h.returnBlock h1 _
    · exact h1
  generalize (if hasUnlinked (u.lines[n]).rx then Machine.returnBlock ((u.lines[n]).rx.asm.current.getD 0) v else v) = x
    at h2 ⊢
  split
  · exact h.giveAbandoned (h.rx h2 _ _) _
  · exact h.offerReport h2 _

theorem breakReceiver (h : KeptCalm Free P) (hu : P u) (n : LineNo) : P (breakReceiver n u) := by
  unfold Machine.breakReceiver; dsimp only
  split
  · exact h.checkIdlePoint (h.rx (h.abandonChain hu _) _ _) _
  · exact hu

end KeptCalm

namespace KeptBelow

theorem receiverOff (h : KeptBelow Free P) (hn : Free n) (hu : P u) : P (receiverOff n u) := by
  unfold Machine.receiverOff; dsimp only
  split
  · exact h.line (h.abandonChain hu _) hn _
  · exact h.line hu hn _

/-! ## Lines -/

theorem giveBackHand (h : KeptBelow Free P) (hu : P u) (n : LineNo) (r : Nat) : P (giveBackHand n r u) := by
  unfold Machine.giveBackHand; split
  · exact h.interruptEntry hu _ _ _
  · exact hu

theorem goOff (h : KeptBelow Free P) (hn : Free n) (hu : P u) : P (goOff n u) :=
  h.leaveWaiting (h.line (h.receiverOff hn (h.tx hn (h.dropHand hn hu) _)) hn _) _

theorem disableTakesEffect (h : KeptBelow Free P) (hn : Free n) (hu : P u) : P (disableTakesEffect n u) :=
  h.checkIdlePoint (h.goOff hn (h.giveBackHand hu _ _)) _

theorem completeDelivery (h : KeptBelow Free P) (hn : Free n) (hu : P u) (k : Hand) : P (completeDelivery n k u) := by
  have hc : P (updTx n (fun t => { t with distantBreak := false, breakInPending := false, send := true })
      (Machine.dropHand n (completeEntry k.number u))) := h.tx hn (h.dropHand hn (h.freeEntry hu _ _)) _
  unfold Machine.completeDelivery; dsimp only
  split
  · exact h.disableTakesEffect hn hc
  · exact h.enterIdle hn hc

theorem completeIfEnded (h : KeptBelow Free P) (hn : Free n) (hu : P u) : P (completeIfEnded n u) := by
  unfold Machine.completeIfEnded; dsimp only
  split
  · split
    · exact h.completeDelivery hn hu _
    · exact hu
  · exact hu

theorem examineRequests (h : KeptBelow Free P) (hn : Free n) (hu : P u) : P (examineRequests n u) := by
  unfold Machine.examineRequests; split
  · exact h.disableTakesEffect hn hu
  · exact h.deferredOr hn hu

theorem nextMember (h : KeptBelow Free P) (hn : Free n) (hu : P u) (k : Hand) (p : Nat) : P (nextMember n k p u) := by
  unfold Machine.nextMember endCallSet; dsimp only
  split
  · exact h.tx hn hu _
  · split
    · exact h.enterSending hn hu _
    · split
      · exact h.enterSending hn (h.splitUnanswered hu _) _
      · exact h.tx hn (h.dropHand hn (h.setAsideEntry hu _)) _

theorem endCall (h : KeptBelow Free P) (hn : Free n) (hu : P u) (k : Hand) (p : Nat) : P (endCall n k p u) := by
  unfold Machine.endCall; split
  · exact hu
  · split
    · exact h.tx hn hu _
    · exact h.nextMember hn (h.du hu _) _ _

theorem answerCheck (h : KeptBelow Free P) (hn : Free n) (hu : P u) (c : Code) (f : Bool) : P (answerCheck n c f u) := by
  unfold Machine.answerCheck; dsimp only
  split
  · split
    · exact h.tx hn hu _
    · split
      · exact hu
      · split
        · exact hu
        · split
          · exact h.nextMember hn (h.du hu _) _ _
          · exact h.tx hn hu _
  · exact hu

theorem breakTransmitter (h : KeptBelow Free P) (hn : Free n) (hu : P u) : P (breakTransmitter n u) := by
  unfold Machine.breakTransmitter; dsimp only
  split
  · exact hu
  · split
    · exact h.tx hn hu _
    · split
      · split
        · exact h.examineRequests hn (h.tx hn hu _)
        · exact h.tx hn hu _
      · exact hu

theorem latchLine (h : KeptBelow Free P) (hn : Free n) (hu : P u) : P (latchLine n u) := by
  unfold Machine.latchLine; dsimp only
  split
  · have hd := h.tx hn (h.dropHand hn (h.giveBackHand (h.tx hn hu (fun t => { t with sending := none, send := true })) n 6))
      (fun t => { t with breakInPending := false, owed := none })
    split
    · exact h.disableTakesEffect hn hd
    · exact h.tx hn hd _
  · exact hu

/-! ## The Chain Walker and the Post Unit -/

end KeptBelow

theorem KeptInside.postEnded (h : KeptInside Free P) (hu : P u) : P (postEnded u) := by
  unfold Machine.postEnded; dsimp only
  split
  · exact h.walker (h.post hu) _
  · exact h.post hu

namespace KeptBelow

theorem freeTransit (h : KeptBelow Free P) (hu : P u) (t : Option TransitNo) : P (freeTransit t u) := by
  unfold Machine.freeTransit; split
  · exact h.du hu _
  · exact hu

theorem endCounted (h : KeptBelow Free P) (hu : P u) (w : Walk) : P (endCounted w u) := by
  unfold Machine.endCounted; dsimp only
  split
  · exact h.report (h.walker hu _) _
  · split
    · exact h.freeTransit (h.report (h.walker hu _) _) _
    · exact h.report (h.walker hu _) _
  · exact h.freeTransit (h.report (h.walker hu _) _) _

theorem actOn (h : KeptBelow Free P) (hu : P u) (w : Walk) : P (actOn w u) := by
  unfold Machine.actOn; split
  · exact h.pool hu _
  · exact h.returnBlock hu _

theorem reachCounted (h : KeptBelow Free P) (hu : P u) (w : Walk) : P (reachCounted w u) := by
  unfold Machine.reachCounted actCounted; dsimp only
  split
  · exact h.endCounted hu _
  · split
    · exact h.pumpWalker (h.walker hu _)
    · exact h.endCounted (h.actOn hu _) _

end KeptBelow

theorem KeptInside.failPosting (h : KeptInside Free P) (hu : P u) (w : Walk) (r : Nat) : P (failPosting w r u) :=
  h.postEnded (h.walker (h.report (foldl_keeps P (fun _ _ hu => h.setBlock hu _ _) _ hu) _) _)

theorem KeptInside.reachPosting (h : KeptInside Free P) (hu : P u) (w : Walk) (b : Nat) : P (reachPosting w b u) := by
  unfold Machine.reachPosting
  split
  · exact h.failPosting hu _ _
  · split
    · exact h.failPosting hu _ _
    · split
      · exact h.failPosting hu _ _
      · exact h.pumpWalker (h.walker (h.setBlock hu _ _) _)

theorem KeptInside.startWalk (h : KeptInside Free P) (hu : P u) (r : WalkRequest) : P (startWalk r u) := by
  unfold Machine.startWalk; split
  · exact h.reachPosting hu _ _
  · unfold startHandOver; dsimp only
    split
    · exact h.endCounted hu _
    · exact h.pumpWalker (h.walker hu _)
  · exact h.reachCounted hu _

theorem KeptInside.runWalker (h : KeptInside Free P) (hu : P u) (k : Nat) : P (runWalker k u) := by
  induction k generalizing u with
  | zero => exact hu
  | succ k ih =>
    unfold Machine.runWalker; split
    · exact ih (h.startWalk (h.takeUntil (h.walker hu _) _) _)
    · exact hu

namespace KeptBelow

/-! ## The end of every event -/

end KeptBelow

theorem KeptInside.settle (h : KeptInside Free P) (hu : P u) : P (settle u) := by
  unfold Machine.settle; split
  · exact h.report hu _
  · exact h.report (h.startCycle (h.takeUntil (h.runWalker hu _) _)) _

namespace KeptBelow

/-! ## The bodies of the commands -/

theorem resetLine (h : KeptBelow Free P) (hn : Free n) (hu : P u) : P (resetLine n u) := by
  have hc : P (if enabled u.lines[n] then Machine.goOff n (Machine.giveBackHand n 2 (abandonSending n u)) else u) := by
    split
    · exact h.goOff hn (h.giveBackHand (h.tx hn hu _) _ _)
    · exact hu
  exact h.checkIdlePoint (h.line hc hn _) _

theorem disableLine (h : KeptBelow Free P) (hn : Free n) (hu : P u) : P (disableLine n u) := by
  unfold Machine.disableLine; dsimp only
  split
  · exact hu
  · split
    · exact h.tx hn hu _
    · exact h.disableTakesEffect hn hu

theorem enableLine (h : KeptBelow Free P) (hn : Free n) (hu : P u) : P (enableLine n u) := by
  unfold Machine.enableLine; split
  · exact h.line hu hn _
  · exact hu

theorem lineControl (h : KeptBelow Free P) (hn : Free n) (hu : P u) (v : Word) : P (lineControl n v u) := by
  unfold Machine.lineControl; split_ifs
  · exact h.enableLine hn hu
  · exact h.disableLine hn hu
  · exact h.resetLine hn hu
  · exact hu

theorem lineSettings (h : KeptBelow Free P) (hn : Free n) (hu : P u) (v : Word) : P (lineSettings n v u) :=
  h.checkIdlePoint (h.line hu hn _) _

theorem releaseLine (h : KeptBelow Free P) (hn : Free n) (hu : P u) : P (releaseLine n u) := by
  unfold Machine.releaseLine; split
  · exact h.tx hn hu _
  · exact hu

theorem cancelWord (h : KeptBelow Free P) (hn : ∀ n, Free n) (hu : P u) (v : Word) : P (cancelWord v u) := by
  unfold Machine.cancelWord refuseCancel; split
  · dsimp only
    split
    · exact h.offerReport hu _
    · exact h.cancelEntry hu _
    · exact h.cancelEntry hu _
    · split
      · exact hu
      · unfold setCancelPending; dsimp only
        split
        · exact h.examineRequests (hn _) (h.du hu _)
        · exact h.du hu _
  · exact h.offerReport hu _

theorem returnWord (h : KeptBelow Free P) (hu : P u) (v : Word) : P (returnWord v u) := by
  unfold Machine.returnWord; split
  · exact h.returnBlock hu _
  · exact h.offerReport hu _

theorem endSending (h : KeptBelow Free P) (hn : Free n) (hu : P u) : P (endSending n u) := h.tx hn hu _

theorem beginBreakIn (h : KeptBelow Free P) (hn : Free n) (hu : P u) : P (beginBreakIn n u) := by
  unfold Machine.beginBreakIn; split
  · exact h.beginNext hn hu
  · exact hu

theorem beginCall (h : KeptBelow Free P) (hn : Free n) (hu : P u) : P (beginCall n u) := by
  unfold Machine.beginCall; split
  · exact h.beginNext hn hu
  · exact hu

theorem callBoundary (h : KeptBelow Free P) (hn : Free n) (hu : P u) (k : Hand) : P (callBoundary n k u) := by
  unfold Machine.callBoundary
  refine h.beginCall hn ?_
  split
  · exact h.endCall hn hu _ _
  · exact hu

theorem boundary (h : KeptBelow Free P) (hn : Free n) (hu : P u) : P (boundary n u) := by
  have he := h.endSending hn hu
  unfold Machine.boundary; dsimp only
  split
  · split
    · exact h.disableTakesEffect hn he
    · exact he
  · split
    · exact h.completeDelivery hn he _
    · split
      · exact h.disableTakesEffect hn he
      · split
        · next e => exact h.beginBreakIn hn (h.deferredRequest hn he e)
        · split
          · exact h.callBoundary hn he _
          · exact h.beginNext hn he

theorem endBreakIn (h : KeptBelow Free P) (hn : Free n) (hu : P u) : P (endBreakIn n u) := by
  have he := h.endSending hn hu
  unfold Machine.endBreakIn; dsimp only
  split
  · exact h.disableTakesEffect hn he
  · split
    · split
      · exact h.tx hn (h.tx hn he _) _
      · exact h.beginCall hn (h.selectOr hn (h.tx hn he _) (h.enterIdle hn))
    · exact h.enterIdle hn he

theorem headReadDone (h : KeptBelow Free P) (hn : Free n) (hu : P u) (v : Word) : P (headReadDone n v u) :=
  h.completeIfEnded hn (h.advanceText hn (h.tx hn hu _))

theorem textReadDone (h : KeptBelow Free P) (hn : Free n) (hu : P u) (v : Word) : P (textReadDone n v u) :=
  h.completeIfEnded hn (h.advanceText hn (h.tx hn hu _))

theorem textLinkDone (h : KeptBelow Free P) (hn : Free n) (hu : P u) (v : Word) : P (textLinkDone n v u) :=
  h.completeIfEnded hn (h.advanceText hn (h.tx hn hu _ (fun t ht => by split at ht <;> exact ht)))

theorem expireGuard (h : KeptBelow Free P) (hn : Free n) (hu : P u) : P (expireGuard n u) :=
  h.selectOr hn (h.tx hn hu _) (h.enterIdle hn)

theorem expireAnswer (h : KeptBelow Free P) (hn : Free n) (hu : P u) : P (expireAnswer n u) := by
  unfold Machine.expireAnswer; dsimp only
  split
  · exact h.nextMember hn (h.tx hn hu _) _ _
  · exact h.tx hn hu _

theorem collide (h : KeptBelow Free P) (hn : Free n) (hu : P u) : P (collide n u) := by
  have hc := h.tx hn (h.dropHand hn (h.giveBackHand (h.tx hn hu (fun t => { t with sending := none, send := true })) n 4))
    (fun t => { t with owed := none, breakInPending := false })
  unfold Machine.collide; dsimp only
  split
  · exact h.disableTakesEffect hn hc
  · exact h.enterIdle hn (h.tx hn hc _)

theorem expireBackoff (h : KeptBelow Free P) (hn : Free n) (hu : P u) : P (expireBackoff n u) := by
  unfold Machine.expireBackoff; dsimp only
  split
  · exact h.tx hn hu _
  · split
    · exact h.tellQueue hn (h.tx hn hu _)
    · exact h.tx hn hu _

theorem detectBreak (h : KeptBelow Free P) (hn : Free n) (hu : P u) : P (detectBreak n u) :=
  h.checkIdlePoint (h.breakTransmitter hn (h.breakReceiver (h.line hu hn _) _)) _

theorem openLoop (h : KeptBelow Free P) (hn : Free n) (hu : P u) : P (openLoop n u) := by
  unfold Machine.openLoop; dsimp only
  split
  · exact h.line hu hn _
  · exact h.offerReport (h.line (h.line hu hn _) hn _) _

theorem steadyMark (h : KeptBelow Free P) (hn : Free n) (hu : P u) : P (steadyMark n u) := by
  have hm := h.line hu hn fun l =>
    { markSample 64 l with inBreak := false, sampler := { l.sampler with state := .waitStart } }
  unfold Machine.steadyMark; dsimp only
  generalize updLine n _ u = v at hm ⊢
  have hf : P (if v.lines[n].faulted then restoreLoop n v else v) := by
    split
    · have hr := h.offerReport (h.line hm hn (fun l => { l with faulted := false }))
        (record v .lineRestored n.val Config.none16 0)
      unfold restoreLoop; dsimp only
      split
      · exact h.idleOccasion hn hr
      · exact hr
    · exact hm
  generalize (if v.lines[n].faulted then restoreLoop n v else v) = w at hf ⊢
  refine h.checkIdlePoint ?_ _
  split
  · have hr := h.line hf hn (fun l => { l with recovery := false })
    unfold endRecovery; dsimp only
    split
    · exact h.enterIdle hn hr
    · exact hr
  · exact hf

theorem placeFor (h : KeptBelow Free P) (hn : ∀ n, Free n) (hu : P u) {i : Issuer} (hi : i ≠ .office) :
    P (placeFor i u) := by
  unfold Machine.placeFor
  split
  · split
    · exact h.rxContinue (h.rxPlaced (h.place (h.rx hu _ _) _) _ _) _ _
    · exact hu
  · split
    · exact h.pumpTx (hn _) (h.place (h.tx (hn _) hu _) _)
    · exact hu
  · split
    · exact h.pumpWalker (h.walker (h.place hu _) _)
    · exact hu
  · split
    · exact h.pumpDelivery (h.rewritePlaced (h.place hu _))
    · exact hu
  · split
    · exact h.pumpReport (h.report (h.place hu _) _)
    · exact hu
  · exact absurd rfl hi

theorem linkReadDone (h : KeptBelow Free P) (hu : P u) (w : Walk) (v : Word) : P (linkReadDone w v u) := by
  unfold Machine.linkReadDone actCounted; dsimp only
  split
  · exact h.endCounted (h.actOn hu _) _
  · exact h.reachCounted (h.walker (h.actOn hu _) _) _

theorem handOverHeadDone (h : KeptBelow Free P) (hu : P u) (w : Walk) : P (handOverHeadDone w u) := by
  unfold Machine.handOverHeadDone actCounted; dsimp only
  split
  · exact h.endCounted (h.actOn hu _) _
  · exact hu

end KeptBelow

theorem KeptInside.postLinkDone (h : KeptInside Free P) (hu : P u) (w : Walk) (v : Word) : P (postLinkDone w v u) := by
  unfold Machine.postLinkDone; split
  · exact h.pumpWalker (h.walker hu _)
  · exact h.reachPosting hu _ _

theorem KeptInside.postHeadReadDone (h : KeptInside Free P) (hu : P u) (w : Walk) (v : Word) : P (postHeadReadDone w v u) := by
  unfold Machine.postHeadReadDone; dsimp only
  split
  · exact h.walker hu _
  · split
    · exact h.failPosting hu _ _
    · exact h.pumpWalker (h.walker (h.serial hu _) _)

theorem KeptInside.postingDone (h : KeptInside Free P) (hu : P u) (w : Walk) : P (postingDone w u) :=
  h.postEnded (h.routeMessage (h.walker hu _) _)

end Sys2Proof.Machine

/-! SUPPORT. What the body of every command makes of the state: the store, the station table, and the part of the invariant
`Sound` that holds before the event ends (`Ready`). -/

namespace Sys2Proof.Machine

/-! ## The invariant before the end of an event -/

/-- What holds of a state whose event has not yet ended: the invariant but for the bus, ATTN and the offers, which the end of
the event sees to. While RESET is asserted the Store Port is at rest and nothing is on offer. -/
structure Ready (s : State) : Prop where
  store : s.store.wf = true
  queue : s.port.queue.length ≤ Config.queuePlaces
  fifo : ∀ n : LineNo, s.lines[n.val].rx.fifo.length ≤ Config.fifoPlaces
  post : s.post.length ≤ Config.postPlaces
  inReset : s.resetIn = true → s.port = StorePort.reset ∧ s.report.offers = []
  lock : s.office.setupLock = running s
  map : poolExists s = true → s.pool.map.length = s.office.held.poolBlocks

theorem Sound.ready {s : State} (h : Sound s) : Ready s where
  store := h.store
  queue := h.queue
  fifo := h.fifo
  post := h.post
  inReset hr := ⟨h.inReset hr, h.offers⟩
  lock := h.lock
  map := h.map

/-! ## The end of an event restores the invariant -/

theorem reportWordsPlaced_takeReport (r : Record) (s : State) : ReportWordsPlaced (acceptReport r s) (takeReport r s) :=
  reportWordsPlaced_pumpReport _

/-- Taking a report leaves the offers alone (R182). -/
theorem takeReport_offers (r : Record) (s : State) : (takeReport r s).report.offers = s.report.offers := by
  rw [(reportWordsPlaced_takeReport r s).report]
  unfold acceptReport
  split <;> rfl

theorem foldl_takeReport_offers (os : List Offer) (s : State) :
    (os.foldl (fun s o => takeReport o.record s) s).report.offers = s.report.offers := by
  induction os generalizing s with
  | nil => rfl
  | cons o os ih => exact (ih _).trans (takeReport_offers _ _)

/-- The Report Unit leaves no offer behind (R182). -/
theorem takeOffers_offers (s : State) : (takeOffers s).report.offers = [] := by
  unfold takeOffers takeUntil
  dsimp only
  split
  · rw [foldl_takeReport_offers, offersUntil_all]
    exact List.drop_length
  · next h => simpa [List.eq_nil_iff_forall_not_mem] using h

theorem settle_offers {s : State} (h : s.resetIn = true → s.report.offers = []) : (settle s).report.offers = [] := by
  unfold settle
  split
  · next hr => exact h hr
  · unfold updateAttn
    rw [startCycle_eq]
    exact takeOffers_offers _

/-- ATTN follows its conditions as an event ends (R185). -/
theorem settle_attn (s : State) : (settle s).report.attn = attnCondition (settle s) := by
  unfold settle
  split <;> rfl

/-- Posts never grow in number inside an event. -/
theorem keptInside_post : KeptInside (fun _ => True) (fun u => u.post.length ≤ Config.postPlaces) where
  port h _ _ := h
  report h _ := h
  walker h _ := h
  pool h _ := h
  du h _ := h
  count h _ := h
  serial h _ := h
  post h := by rw [List.length_tail]; exact (Nat.sub_le ..).trans h
  rx h _ _ := h
  transfer h _ := h
  transmitter h _ _ _ _ := h
  line h _ _ _ := h
  awake _ _ _ := trivial

theorem Within.officeState {s u : State} (h : Within s u) : u.office.state = s.office.state :=
  (congrArg OfficeControl.state h.office : _)

theorem Within.running {s u : State} (h : Within s u) : running u = running s := by
  unfold Machine.running
  rw [h.officeState]

theorem Within.poolExists {s u : State} (h : Within s u) : poolExists u = poolExists s := by
  unfold Machine.poolExists
  rw [h.officeState]

/-- Out of reset an operation inside an event keeps `Ready`. -/
theorem Ready.within {s u : State} (hs : Ready s) (hr : s.resetIn = false) (h : Within s u)
    (hp : s.post.length ≤ Config.postPlaces → u.post.length ≤ Config.postPlaces) : Ready u where
  store := by rw [h.store]; exact hs.store
  queue := h.queue hs.queue
  fifo n := (h.fifo n).trans (hs.fifo n)
  post := hp hs.post
  inReset hu := by rw [h.resetIn, hr] at hu; cases hu
  lock := by
    rw [h.running, ← hs.lock]
    exact (congrArg OfficeControl.setupLock h.office : _)
  map he := by
    rw [h.mapLength, hs.map (h.poolExists ▸ he)]
    exact (congrArg (fun o => o.held.poolBlocks) h.office.symm : _)

/-- The end of an event makes the invariant of `Ready`. -/
theorem Ready.sound {s : State} (h : Ready s) : Sound (settle s) := by
  have hw : Within s (settle s) := within_settle (.refl s)
  have hp : (settle s).post.length ≤ Config.postPlaces := keptInside_post.settle h.post
  have hoffers : (settle s).report.offers = [] := settle_offers fun hr => (h.inReset hr).2
  cases hr : s.resetIn with
  | false =>
    have hu := h.within hr hw fun _ => hp
    exact { store := hu.store, queue := hu.queue, fifo := hu.fifo, post := hu.post,
            inReset := fun hu' => by rw [hw.resetIn, hr] at hu'; cases hu'
            busy := fun _ => busServed_settle hr
            attn := settle_attn s, offers := hoffers, lock := hu.lock, map := hu.map }
  | true =>
    have hport : (settle s).port = s.port := by rw [settle_inReset hr]; rfl
    exact { store := by rw [hw.store]; exact h.store
            queue := by rw [hport]; exact h.queue
            fifo := by rw [settle_inReset hr]; exact h.fifo
            post := hp
            inReset := fun _ => hport.trans (h.inReset hr).1
            busy := fun hu' => by rw [hw.resetIn, hr] at hu'; cases hu'
            attn := settle_attn s, offers := hoffers
            lock := by rw [settle_inReset hr]; exact h.lock
            map := by rw [settle_inReset hr]; exact h.map }

/-! ## Operations that keep the store, the tables and the invariant -/

/-- From `s` to `u` the store, both station tables and the office state are as they were, and out of reset `Ready` is kept. -/
structure Near (s u : State) : Prop where
  store : u.store = s.store
  router : u.router = s.router
  resetIn : u.resetIn = s.resetIn
  state : u.office.state = s.office.state
  ready : s.resetIn = false → Ready s → Ready u

theorem Near.refl (s : State) : Near s s := ⟨rfl, rfl, rfl, rfl, fun _ => id⟩

theorem Near.trans {s u v : State} (h : Near s u) (k : Near u v) : Near s v where
  store := k.store.trans h.store
  router := k.router.trans h.router
  resetIn := k.resetIn.trans h.resetIn
  state := k.state.trans h.state
  ready hr hs := k.ready (h.resetIn.trans hr) (h.ready hr hs)

variable {s u v : State}

/-- The operation keeps the number of posts within its bound. -/
abbrev PostKept (u v : State) : Prop := u.post.length ≤ Config.postPlaces → v.post.length ≤ Config.postPlaces

/-- An operation inside an event. -/
theorem Near.within (h : Near s u) (k : Within u v) (hp : PostKept u v) : Near s v :=
  h.trans ⟨k.store, k.router, k.resetIn, k.officeState, fun hr hu => hu.within hr k hp⟩

theorem near_within (k : Within s v) (hp : PostKept s v) : Near s v := (Near.refl s).within k hp

/-- A change of Office Control that keeps its state, its lock and the setup held. -/
theorem near_office (s : State) {o : OfficeControl} (hs : o.state = s.office.state)
    (hl : o.setupLock = s.office.setupLock) (hh : o.held = s.office.held) : Near s { s with office := o } where
  store := rfl
  router := rfl
  resetIn := rfl
  state := hs
  ready _ h := { h with
    lock := by
      show o.setupLock = (o.state == .running)
      rw [hs, hl]
      exact h.lock
    map := fun he => by
      have : poolExists s = true := by unfold poolExists at he ⊢; rw [← hs]; exact he
      rw [hh]
      exact h.map this }

theorem near_updOffice (s : State) (f : OfficeControl → OfficeControl) (hs : (f s.office).state = s.office.state)
    (hl : (f s.office).setupLock = s.office.setupLock) (hh : (f s.office).held = s.office.held) :
    Near s (updOffice f s) := near_office s hs hl hh

theorem near_pins (s : State) (p : Pins) : Near s { s with pins := p } := ⟨rfl, rfl, rfl, rfl, fun _ h => { h with }⟩

theorem near_path (s : State) (p : PathUnit) : Near s { s with path := p } := ⟨rfl, rfl, rfl, rfl, fun _ h => { h with }⟩

theorem near_count (s : State) (k : Nat) : Near s { s with freeCount := k } := ⟨rfl, rfl, rfl, rfl, fun _ h => { h with }⟩

/-- A change of the lines that keeps each receive FIFO within its places. -/
theorem near_lines (s : State) (ls : Vector LineUnit 24)
    (hf : ∀ n : LineNo, s.lines[n.val].rx.fifo.length ≤ Config.fifoPlaces → ls[n.val].rx.fifo.length ≤ Config.fifoPlaces) :
    Near s { s with lines := ls } where
  store := rfl
  router := rfl
  resetIn := rfl
  state := rfl
  ready _ h := { h with fifo := fun n => hf n (h.fifo n) }

/-- A change of the Store Port that adds nothing to the queue. -/
theorem near_port (s : State) {p : StorePort} (hq : p.queue = s.port.queue) : Near s { s with port := p } where
  store := rfl
  router := rfl
  resetIn := rfl
  state := rfl
  ready hr h := { h with
    queue := by rw [hq]; exact h.queue
    inReset := fun hr' => by rw [show s.resetIn = true from hr'] at hr; cases hr }

theorem near_forward (s : State) (a : Access) : Near s (forward a s) := near_port s rfl

/-! ## The office -/

theorem near_setClock (s : State) (v : BitVec 32) : Near s (setClock v s) :=
  (near_office s (o := { s.office with clock := v, divider := 0 }) rfl rfl rfl).within (within_releaseWaiting (.refl _))
    fun h => keptInside_post.releaseWaiting h

theorem near_advanceClock (s : State) : Near s (advanceClock s) := by
  unfold advanceClock
  split
  · exact near_office s rfl rfl rfl
  · exact near_setClock s _

theorem near_latchHold (s : State) : Near s (latchHold s) := by
  unfold latchHold
  dsimp only
  have hl : Near s (updOffice (fun o => { o with holdLatch := true }) s) := near_office s rfl rfl rfl
  split
  · refine ((hl.within (within_offerReport (.refl _) (record s .holdLatched Config.officeLine Config.none16 0)) id).trans
      (near_count _ (s.freeCount + 1))).within (within_foldl _ (fun n h => within_latchLine h n) _ (.refl _)) fun h => ?_
    exact foldl_keeps (fun u => u.post.length ≤ Config.postPlaces) (fun _ _ hu => keptInside_post.latchLine trivial hu) _ h
  · exact hl

theorem near_assertHold (s : State) : Near s (assertHold s) := by
  unfold assertHold
  dsimp only
  split
  · exact near_pins s _
  · exact (near_pins s { s.pins with hold := true }).trans (near_latchHold _)

theorem near_holdLevel (s : State) (level : Bool) : Near s (holdLevel level s) := by
  unfold holdLevel
  split
  · split
    · exact .refl s
    · exact near_assertHold s
  · exact near_pins s _

theorem near_resumeHold (s : State) : Near s (resumeHold s) := by
  unfold resumeHold
  dsimp only
  split
  · exact near_office s rfl rfl rfl
  · have hl : Near s (updOffice (fun o => { o with holdStill := false, holdLatch := false }) s) :=
      near_office s rfl rfl rfl
    split
    · exact hl.within (within_onAllLines releaseLine (fun n h => within_releaseLine h n)
          (within_offerReport (.refl _) (record s .holdResumed Config.officeLine Config.none16 0)))
        fun h => foldl_keeps (fun u => u.post.length ≤ Config.postPlaces)
          (fun _ _ hu => keptInside_post.releaseLine trivial hu) _ (keptInside_post.offerReport h _)
    · exact hl

/-- Office Control's placements of setup reads keep the queue within its places. -/
theorem pumpOffice_queue (k : Nat) (h : u.port.queue.length ≤ Config.queuePlaces) :
    (pump .office nextSetupRead setupReadPlaced k u).port.queue.length ≤ Config.queuePlaces := by
  induction k generalizing u with
  | zero => exact h
  | succ k ih =>
    unfold pump
    split
    · exact h
    · next r _ =>
      split
      · next ha => exact ih ((within_place (.refl u) r (admits_room ha)).queue h)
      · exact (within_waitFor (.refl u) _).queue h

theorem near_pumpOffice (s : State) : Near s (pumpOffice s) := by
  unfold pumpOffice
  obtain ⟨p, m, e⟩ := pumpOffice_eq pumpFuel s
  refine ⟨by rw [e], by rw [e], by rw [e], by rw [e], fun hr h => ?_⟩
  have hq := pumpOffice_queue pumpFuel h.queue
  rw [e] at hq ⊢
  exact { h with
    queue := hq
    inReset := fun hr' => by rw [show s.resetIn = true from hr'] at hr; cases hr }

/-- The issuer at the head of the waiting list gets its place (R9). -/
theorem near_placeWaiting (room : s.port.queue.length < Config.queuePlaces) : Near s (placeWaiting s) := by
  unfold placeWaiting
  split
  · exact .refl s
  · next i rest _ =>
    have hw : Near s (updPort (fun p => { p with waiting := rest }) s) := near_port s rfl
    by_cases hi : i = .office
    · subst hi
      unfold placeFor
      dsimp only
      split
      · next r _ =>
        have hp := hw.within (within_place (.refl _) r room) (fun h => keptInside_post.place h r)
        have hq : Near s (setupReadPlaced (place r (updPort (fun p => { p with waiting := rest }) s))) :=
          hp.trans (near_office _ rfl rfl rfl)
        exact hq.trans (near_pumpOffice _)
      · exact hw
    · exact hw.within (within_placeFor (.refl _) hi room) fun h => keptInside_post.placeFor (fun _ => trivial) h hi

/-- A character joins the FIFO only below its eight places (R62). -/
theorem receiveCharacter_fifo {code : Code} {noise framing : Bool} {l : LineUnit}
    (h : l.rx.fifo.length ≤ Config.fifoPlaces) :
    (receiveCharacter code noise framing l).rx.fifo.length ≤ Config.fifoPlaces := by
  unfold receiveCharacter
  split_ifs with he hfull
  · exact h
  · exact h
  · exact h
  · show (l.rx.fifo ++ _).length ≤ _
    rw [List.length_append]
    exact Nat.lt_of_not_le hfull

theorem near_completeCharacter (n : LineNo) (code : Code) (noise framing lastMark : Bool) (s : State) :
    Near s (completeCharacter n code noise framing lastMark s) := by
  refine Near.within (near_lines s _ fun m hm => ?_) (within_checkIdlePoint (within_answerCheck (.refl _) n code framing) n)
    fun h => keptInside_post.checkIdlePoint (keptInside_post.answerCheck trivial h _ _) _
  rw [Vector.getElem_set]
  split
  · next e =>
    obtain rfl : n = m := Fin.ext e
    exact receiveCharacter_fifo (l := completeSampler code noise framing lastMark s.lines[n]) hm
  · exact hm

/-! ## Reads -/

theorem near_substituted {off : Nat} {f : State → State} (e : substituted s off = some f) : Near s (f s) := by
  unfold substituted at e
  split_ifs at e
  · cases e
    exact (near_within (within_claimBlock (.refl s)) fun h => keptInside_post.claimBlock h).trans (near_path _ _)
  · obtain ⟨v, -, rfl⟩ := Option.map_eq_some_iff.1 e
    exact near_path s _

theorem near_arriveRead (addr : Addr) (s : State) : Near s (arriveRead addr s) := by
  unfold arriveRead
  split
  · next e =>
    obtain ⟨off, -, eo⟩ := Option.bind_eq_some_iff.1 e
    exact near_substituted eo
  · exact near_forward s _

theorem near_processorRead (addr : Addr) (s : State) : Near s (processorRead addr s) := by
  unfold processorRead
  split
  · exact near_path s _
  · exact near_arriveRead addr s

/-! ## What the body of a command makes of the state -/

/-- The active station table is as it was, or the office was RUNNING with an acceptable shadow and the table is now the whole
shadow (R88, R89). -/
def TableKept (s u : State) : Prop :=
  u.router.active = s.router.active ∨
    (running s = true ∧ commitFailure s.router.shadow = none ∧ u.router.active = s.router.shadow)

/-- The store is as it was, but a write of the station table and a change of the office state may have come about. -/
structure Arrived (s u : State) : Prop where
  store : u.store = s.store
  resetIn : u.resetIn = s.resetIn
  table : TableKept s u
  ready : s.resetIn = false → Ready s → Ready u

theorem Near.arrived (h : Near s u) : Arrived s u where
  store := h.store
  resetIn := h.resetIn
  table := .inl (congrArg Router.active h.router)
  ready := h.ready

theorem Near.then (h : Near s u) (k : Arrived u v) : Arrived s v where
  store := k.store.trans h.store
  resetIn := k.resetIn.trans h.resetIn
  table := by
    have hrun : running u = running s := by unfold running; rw [h.state]
    have := k.table
    unfold TableKept at this ⊢
    rwa [h.router, hrun] at this
  ready hr hs := k.ready (h.resetIn.trans hr) (h.ready hr hs)

/-- In DORMANT the start word begins the load; in the other states it only may mark the setup locked (R13). -/
theorem arrived_startWord (s : State) : Arrived s (startWord s) := by
  unfold startWord
  split
  · next hs =>
    have h := near_pumpOffice (updOffice (fun o =>
      { o with state := .setupRead, refusal := 0, setupNext := 0, setupWords := [] }) s)
    refine ⟨h.store, h.resetIn, .inl (congrArg Router.active h.router), fun hr hs' => h.ready hr { hs' with
      lock := ?_, map := fun he => by cases he }⟩
    have : running s = false := by unfold running; rw [hs]; rfl
    exact hs'.lock.trans this
  · exact (Near.refl s).arrived
  · exact (Near.refl s).arrived
  · exact (near_updOffice s _ rfl rfl rfl).arrived

theorem arrived_commitStations (hrun : running s = true) : Arrived s (commitStations s) := by
  unfold commitStations
  split
  · exact (near_within (within_offerReport (.refl s) _) id).arrived
  · next hc =>
    refine ⟨rfl, rfl, .inr ⟨hrun, hc, rfl⟩, fun hr h => ?_⟩
    have h2 : Ready { s with router := { s.router with active := s.router.shadow } } := { h with }
    exact h2.within hr (within_offerReport (.refl _) _) id

theorem near_postWord (v : Word) (s : State) : Near s (postWord v s) := by
  refine near_within (within_postWord (.refl s) v) fun h => ?_
  unfold postWord
  dsimp only
  split_ifs
  · exact h
  · exact h
  · next hnil =>
    show (s.post ++ [v]).length ≤ _
    rw [hnil]
    simp [Config.postPlaces]
  · next hlen _ =>
    show (s.post ++ [v]).length ≤ _
    rw [List.length_append]
    exact Nat.lt_of_not_le hlen

theorem arrived_snoopRunning (off : Nat) (v : Word) (hrun : running s = true) : Arrived s (snoopRunning off v s) := by
  unfold snoopRunning
  split_ifs
  · exact (near_within (within_returnWord (.refl s) v) fun h => keptInside_post.returnWord h v).arrived
  · exact (near_postWord v s).arrived
  · refine (near_within (within_readIndex (.refl s) v) fun h => ?_).arrived
    unfold readIndex
    split <;> exact h
  · exact arrived_commitStations hrun
  · exact (near_within (within_cancelWord (.refl s) v) fun h => keptInside_post.cancelWord (fun _ => trivial) h v).arrived
  · exact (near_updOffice s _ rfl rfl rfl).arrived
  · exact ((near_office s (o := { s.office with
      captured := none
      advanceVoid := s.office.advanceVoid || decide (Config.cyclesPerSecond ≤ s.office.divider) }) rfl rfl rfl).trans
        (near_setClock _ _)).arrived
  · exact (near_within (within_lineControl (.refl s) _ v) fun h => keptInside_post.lineControl trivial h v).arrived
  · exact (Near.refl s).arrived

theorem arrived_snoop (off : Nat) (v : Word) (s : State) : Arrived s (snoop off v s) := by
  unfold snoop
  split_ifs
  · exact arrived_startWord s
  · exact (near_resumeHold s).arrived
  · exact (near_within (within_lineSettings (.refl s) _ v) fun h => keptInside_post.lineSettings trivial h v).arrived
  · exact ⟨rfl, rfl, .inl rfl, fun _ h => { h with }⟩
  · next hrun => exact arrived_snoopRunning off v hrun
  · exact (Near.refl s).arrived

theorem near_poolWrite (a : Access) (b : Nat) (s : State) : Near s (poolWrite a b s) := by
  unfold poolWrite
  split
  · exact .refl s
  · split
    · exact near_forward s a
    · exact near_within (within_guardViolation (.refl s) _ _ _) id

theorem arrived_arriveWrite (addr : Addr) (w : WriteData) (s : State) : Arrived s (arriveWrite addr w s) := by
  unfold arriveWrite
  dsimp only
  split
  · split
    · exact (near_forward s _).then (arrived_snoop _ _ _)
    · exact (near_forward s _).arrived
  · split
    · exact (near_poolWrite _ _ s).arrived
    · exact (near_forward s _).arrived
  · exact (near_forward s _).arrived

theorem arrived_processorWrite (addr : Addr) (w : WriteData) (s : State) : Arrived s (processorWrite addr w s) := by
  unfold processorWrite
  split
  · exact (near_path s _).arrived
  · exact arrived_arriveWrite addr w s

end Sys2Proof.Machine

/-! SUPPORT. What every command makes of the store, the station table and the invariant, before its event ends; the steps of
the part left to itself; and the three statements about every command and every step (O3, O4, O5). -/

namespace Sys2Proof.Machine

variable {s u v : State}

/-- The store is as it was, or the write of the store cycle in progress has been made (R2, R11, R18). -/
def StoreServed (s u : State) : Prop :=
  u.store = s.store ∨ ∃ (cy : Cycle) (w : WriteData), s.port.cycle = some cy ∧ cy.access.write = some w ∧
    u.store = s.store.write cy.access.addr w

/-- What the body of command `c` makes of `s`. -/
structure Carried (c : Instr) (s u : State) : Prop where
  store : StoreServed s u
  table : TableKept s u ∨ ∃ p h, c = .resetDeasserted p h
  ready : Ready s → Ready u

variable {c : Instr}

/-- A body that touches the store in no way; where it can arise while RESET is asserted its part there is told apart. -/
theorem Arrived.carried (h : Arrived s u) (hr : s.resetIn = true → Ready s → Ready u) : Carried c s u where
  store := .inl h.store
  table := .inl h.table
  ready := by
    cases e : s.resetIn with
    | false => exact h.ready e
    | true => exact hr e

/-- The state as a store cycle ends with its write, if any. -/
def served (a : Access) (s : State) : State := { ended s with store := s.store.serve a.addr a.write }

theorem ready_served (hr : s.resetIn = false) (h : Ready s) (a : Access) : Ready (served a s) where
  store := by
    show (s.store.serve a.addr a.write).wf = true
    cases a.write with
    | none => exact h.store
    | some w => exact Memory.write_wf _ _ _ h.store
  queue := h.queue
  fifo := h.fifo
  post := h.post
  inReset hu := by rw [show s.resetIn = true from hu] at hr; cases hr
  lock := h.lock
  map := h.map

/-- What follows a store cycle that has ended. While RESET is asserted there is none to end. -/
theorem Arrived.completed {cy : Cycle} (hc : s.port.cycle = some cy) (h : Arrived (served cy.access s) u) :
    Carried c s u where
  store := by
    cases hw : cy.access.write with
    | none =>
      left
      rw [h.store, served, hw]
      rfl
    | some w =>
      refine .inr ⟨cy, w, hc, hw, ?_⟩
      rw [h.store, served, hw]
      rfl
  table := .inl h.table
  ready hs := by
    cases hr : s.resetIn with
    | true =>
      rw [(hs.inReset hr).1] at hc
      cases hc
    | false => exact h.ready hr (ready_served hr hs _)

theorem near_finishRequest (r : Req) (s : State) : Near (served (Cycle.internal r).access s) (finishRequest r s) := by
  refine near_within (finishRequest_within r s) fun h => ?_
  unfold finishRequest
  dsimp only
  split
  · exact keptInside_post.rxCompleted h _
  · exact h

theorem near_settleAccess (a : Access) (s : State) : Near (served a s) (settleAccess a s) := by
  unfold settleAccess
  dsimp only
  split
  · exact .refl _
  · exact near_path _ _

/-! ## Setup, pool build and reset -/

/-- An accepted setup makes a block map with one entry for each block (R16, R21). -/
theorem ready_acceptSetup {h : HeldSetup} (hr : s.resetIn = false) (hs : Ready s) (hstate : s.office.state = .setupRead) :
    Ready (acceptSetup h s) := by
  unfold acceptSetup
  dsimp only
  refine Ready.within (s := updPool (fun _ =>
      { map := List.replicate h.poolBlocks .free, free := List.range h.poolBlocks, starved := [] })
      (updOffice (fun o => { o with state := .poolBuild, held := h, refusal := 0 }) s)) ?_ hr
    (within_pumpWalker (within_updWalker (.refl _) _)) fun hp => keptInside_post.pumpWalker (keptInside_post.walker hp _)
  exact { hs with
    lock := by
      show s.office.setupLock = false
      rw [hs.lock]
      unfold running
      rw [hstate]
      rfl
    map := fun _ => List.length_replicate }

theorem arrived_setupWordDone (v : Word) (s : State) : Arrived s (setupWordDone v s) := by
  unfold setupWordDone
  dsimp only
  split
  · next hs =>
    have hk : Near s (updOffice (fun o => { o with setupWords := o.setupWords ++ [v] }) s) := near_updOffice s _ rfl rfl rfl
    split
    · exact hk.arrived
    · refine hk.then ?_
      unfold validateSetup
      generalize hu : updOffice (fun o => { o with setupWords := o.setupWords ++ [v] }) s = u
      have hus : u.office.state = .setupRead := by rw [← hu]; exact hs
      dsimp only
      split
      · have hw : (acceptSetup (parseSetup u.office.setupWords) u).store = u.store :=
          (within_pumpWalker (within_updWalker (.refl _) _)).store
        have hx : (acceptSetup (parseSetup u.office.setupWords) u).resetIn = u.resetIn :=
          (within_pumpWalker (within_updWalker (.refl _) _)).resetIn
        have hy : (acceptSetup (parseSetup u.office.setupWords) u).router = u.router :=
          (within_pumpWalker (within_updWalker (.refl _) _)).router
        exact ⟨hw, hx, .inl (congrArg Router.active hy), fun hr h => ready_acceptSetup hr h hus⟩
      · refine ⟨rfl, rfl, .inl rfl, fun hr h => { h with lock := ?_, map := fun he => by cases he }⟩
        show u.office.setupLock = false
        rw [h.lock]
        unfold running
        rw [hus]
        rfl
  · exact (Near.refl s).arrived

theorem arrived_enterRunning (s : State) : Arrived s (enterRunning s) := by
  unfold enterRunning
  split
  · next hs =>
    exact ⟨rfl, rfl, .inl rfl, fun hr h => { h with
      lock := rfl
      map := fun _ => h.map (by unfold poolExists; rw [hs]; rfl) }⟩
  · exact (Near.refl s).arrived

/-- The word under a write that reset ends is old or new (R18, log 10). -/
theorem storeServed_endWrite (s : State) : StoreServed s (endWrite s) := by
  unfold endWrite
  split
  · exact .inl rfl
  · next cy hc =>
    split
    · exact .inl rfl
    · next w hw =>
      dsimp only
      split
      · exact .inr ⟨cy, w, hc, hw, rfl⟩
      · exact .inl rfl

/-- The end of a store cycle at reset touches the store and the count of free values alone. -/
theorem endWrite_eq (s : State) : endWrite s = { s with store := (endWrite s).store, freeCount := (endWrite s).freeCount } := by
  unfold endWrite
  split
  · rfl
  · split
    · rfl
    · dsimp only
      split <;> rfl

theorem carried_assertReset (s : State) : Carried c s (assertReset s) where
  store := storeServed_endWrite s
  table := .inl (.inl (by unfold assertReset; rw [endWrite_eq]))
  ready h := by
    have hstore : (endWrite s).store.wf = true := by
      obtain e | ⟨cy, w, -, -, e⟩ := storeServed_endWrite s
      · rw [e]; exact h.store
      · rw [e]; exact Memory.write_wf _ _ _ h.store
    unfold assertReset
    rw [endWrite_eq]
    exact { store := hstore
            queue := Nat.zero_le _
            fifo := fun n => by
              simp only [Vector.getElem_map]
              exact h.fifo n
            post := h.post
            inReset := fun _ => ⟨rfl, rfl⟩
            lock := rfl
            map := fun he => by cases he }

theorem ready_resetValues (p : BitVec 4) (l : Bool) (h : Ready s) : Ready (resetValues p l s) where
  store := h.store
  queue := Nat.zero_le _
  fifo n := by
    show (Vector.replicate 24 LineUnit.reset)[n.val].rx.fifo.length ≤ _
    rw [Vector.getElem_replicate]
    exact Nat.zero_le _
  post := Nat.zero_le _
  inReset hu := by cases hu
  lock := rfl
  map he := by cases he

theorem carried_deassertReset (p : BitVec 4) (l : Bool) (s : State) :
    Carried (.resetDeasserted p l) s (deassertReset p l s) := by
  have key : Arrived (resetValues p l s) (deassertReset p l s) := by
    unfold deassertReset
    dsimp only
    split
    · exact (Near.refl _).arrived
    · split
      · exact arrived_arriveWrite _ _ _
      · exact (near_arriveRead _ _).arrived
  exact ⟨.inl key.store, .inr ⟨p, l, rfl⟩, fun h => key.ready rfl (ready_resetValues p l h)⟩

/-! ## Every command -/

theorem answersCarried_event {due : Bool} {f : State → State} (hreset : s.resetIn = true → due = false)
    (h : Arrived s (f s)) : AnswersBy (Carried c s) s (event due f s) :=
  event_answers fun hd => h.carried fun hr => by rw [hreset hr] at hd; cases hd

theorem lineEvent_carried (n : LineNo) (due : LineUnit → Bool) {f : State → State} (h : Near s (f s)) :
    AnswersBy (Carried c s) s (lineEvent n due f s) :=
  answersCarried_event (fun hr => by rw [hr]; rfl) h.arrived

/-- A line event that is an operation inside the event. -/
theorem lineEvent_within (n : LineNo) (due : LineUnit → Bool) {f : State → State} (h : Within s (f s)) (hp : PostKept s (f s)) :
    AnswersBy (Carried c s) s (lineEvent n due f s) := lineEvent_carried n due (near_within h hp)

/-- While RESET is asserted an access is held, and the invariant stands. -/
theorem ready_holdAccess (a : Access) (h : Ready s) : Ready (holdAccess a s) := { h with }

theorem writeEvent_carried (a : Addr) (w : WriteData) : AnswersBy (Carried c s) s (writeEvent a w s) :=
  event_answers fun _ => (arrived_processorWrite a w s).carried fun hr h => by
    unfold processorWrite
    rw [if_pos hr]
    exact ready_holdAccess _ h

theorem readEvent_carried (a : Addr) : AnswersBy (Carried c s) s (readEvent a s) :=
  event_answers fun _ => (near_processorRead a s).arrived.carried fun hr h => by
    unfold processorRead
    rw [if_pos hr]
    exact ready_holdAccess _ h

theorem completion_carried {p : Purpose → Bool} {f : Req → Word → State → State}
    (h : ∀ r u, Arrived u (f r (s.store.readWord r.addr) u)) : AnswersBy (Carried c s) s (completion p f s) :=
  completion_answers fun r hc _ => ((near_finishRequest r s).then (h r _)).completed hc

theorem walkCompletion_carried {p : Purpose → Bool} {f : Walk → Word → State → State}
    (hw : ∀ w v u, Within u (f w v u)) (hp : ∀ w v u, PostKept u (f w v u)) :
    AnswersBy (Carried c s) s (walkCompletion p f s) :=
  completion_carried fun r u => by
    split
    · exact (near_within (hw _ _ u) (hp _ _ u)).arrived
    · exact (Near.refl u).arrived

theorem transmitterCompletion_carried {p : Purpose → Bool} {f : LineNo → Word → State → State}
    (hw : ∀ {s u : State}, Within s u → ∀ n v, Within s (f n v u)) (hp : ∀ n v u, PostKept u (f n v u)) :
    AnswersBy (Carried c s) s (transmitterCompletion p f s) :=
  completion_carried fun r u => by
    split
    · split
      · exact (near_within (within_updTx (.refl u) _ _) id).arrived
      · exact (near_within (hw (within_updTx (.refl u) _ _) _ _) (hp _ _ (updTx _ _ u))).arrived
    · exact (Near.refl u).arrived

theorem forwardedAccessCompletion_carried : AnswersBy (Carried c s) s (execForwardedAccessCompletion s) := by
  unfold execForwardedAccessCompletion
  split
  · next a hc => exact event_answers fun _ => (near_settleAccess a s).arrived.completed (cy := .forwarded a) hc
  · exact .inl rfl

/-- The level of HOLD changes only the pins while RESET is asserted (R164). -/
theorem holdLevel_inReset (hr : s.resetIn = true) (level : Bool) : ∃ p, holdLevel level s = { s with pins := p } := by
  unfold holdLevel assertHold
  split
  · split
    · exact ⟨s.pins, rfl⟩
    · exact ⟨_, by dsimp only; rw [hr]; rfl⟩
  · exact ⟨_, rfl⟩

theorem assertHold_inReset (hr : s.resetIn = true) : assertHold s = { s with pins := { s.pins with hold := true } } := by
  unfold assertHold
  dsimp only
  rw [hr]
  rfl

theorem resume_carried (be : ByteEnables) (hold : Bool) : AnswersBy (Carried c s) s (execResume be hold s) :=
  event_answers fun _ => by
    refine Arrived.carried ((near_holdLevel s hold).then (arrived_processorWrite _ _ _)) fun hr h => ?_
    obtain ⟨p, e⟩ := holdLevel_inReset hr hold
    rw [e]
    unfold processorWrite
    rw [if_pos (by exact hr)]
    exact ready_holdAccess _ { h with }

/-- Every command is an event or changes nothing; it leaves the store but for the cycle in progress, the station table but for
an accepted commit and the deassertion of reset, and the invariant as it was. -/
theorem exec_carried (c : Instr) (s : State) : AnswersBy (Carried c s) s (exec c s) := by
  unfold exec
  cases c
  -- the reset input and the setup
  case resetAsserted => exact event_answers fun _ => carried_assertReset s
  case resetDeasserted p h => exact event_answers fun _ => carried_deassertReset p h s
  case setupReadCompletion => exact completion_carried fun _ u => arrived_setupWordDone _ u
  case poolBuildEnd => exact completion_carried fun _ u => arrived_enterRunning u
  -- accesses of the processor
  case processorWrite | poolWrite | startWord | returnWord | postWord | commitStations | stationShadowWrite | cancelWord |
      clockSetHigh | clockSetLow | enable | disable | lineReset | lineSettingsWord | reportReadIndex =>
    exact writeEvent_carried _ _
  case claim => exact readEvent_carried _
  case resume be hold => exact resume_carried be hold
  -- the Store Port
  case forwardedAccessCompletion => exact forwardedAccessCompletion_carried
  case requestPlacement =>
    refine event_answers fun hd => ?_
    simp only [placementDue, Bool.and_eq_true, decide_eq_true_eq, Bool.not_eq_true'] at hd
    exact (near_placeWaiting hd.2).arrived.carried fun hr => by rw [hd.1.1] at hr; cases hr
  case internalWriteCompletion => exact completion_carried fun _ u => (Near.refl u).arrived
  case reportWordCompletion =>
    exact completion_carried fun _ u => (near_within (within_updReport (.refl u) _) id).arrived
  -- walks
  case linkReadCompletion =>
    exact walkCompletion_carried (fun w v u => within_linkReadDone (.refl u) w v)
      fun w v u h => keptInside_post.linkReadDone h w v
  case handOverHeadWriteCompletion =>
    exact walkCompletion_carried (fun w _ u => within_handOverHeadDone (.refl u) w)
      fun w _ u h => keptInside_post.handOverHeadDone h w
  case postingLinkReadCompletion =>
    exact walkCompletion_carried (fun w v u => within_postLinkDone (.refl u) w v)
      fun w v u h => keptInside_post.postLinkDone h w v
  case postingHeadReadCompletion =>
    exact walkCompletion_carried (fun w v u => within_postHeadReadDone (.refl u) w v)
      fun w v u h => keptInside_post.postHeadReadDone h w v
  case postingHeadWriteCompletion =>
    exact walkCompletion_carried (fun w _ u => within_postingDone (.refl u) w)
      fun w _ u h => keptInside_post.postingDone h w
  -- the office
  case clockAdvance =>
    exact answersCarried_event (fun hr => by rw [hr]; rfl) (near_advanceClock s).arrived
  case holdLatching =>
    exact event_answers fun _ => (near_assertHold s).arrived.carried fun hr h => by
      rw [assertHold_inReset hr]
      exact { h with }
  -- samplers and receivers
  case startEdge n => exact lineEvent_within n _ (within_updLine (.refl s) n _ (by intro _; exact Nat.le_refl _)) id
  case falseStart n lastSpace =>
    refine lineEvent_within n _ (within_checkIdlePoint (within_updLine (.refl s) n _ ?_) n)
      fun h => keptInside_post.checkIdlePoint (keptInside_post.line (n := n) h trivial _) n
    intro l
    unfold falseStart
    split <;> exact Nat.le_refl _
  case breakEnd n => exact lineEvent_within n _ (within_updLine (.refl s) n _ (by intro _; exact Nat.le_refl _)) id
  case characterCompletion n code noise framing lastMark =>
    exact lineEvent_carried n _ (near_completeCharacter n code noise framing lastMark s)
  case receiverTake n =>
    exact lineEvent_within n _ (within_takeEntry (.refl s) n) fun h => keptInside_post.takeEntry h n
  case idleTimeoutExpiry n => exact lineEvent_within n _ (within_updRx (.refl s) n _ (by intro _; exact Nat.le_refl _)) id
  case idleClose n =>
    exact lineEvent_within n _ (within_idleCloseMessage (.refl s) n) fun h => keptInside_post.rxContinue (keptInside_post.rx h n _) _ _
  case breakDetection n =>
    exact lineEvent_within n _ (within_detectBreak (.refl s) n) fun h => keptInside_post.detectBreak trivial h
  case loopOpen n => exact lineEvent_within n _ (within_openLoop (.refl s) n) fun h => keptInside_post.openLoop trivial h
  case steadyMark n => exact lineEvent_within n _ (within_steadyMark (.refl s) n) fun h => keptInside_post.steadyMark trivial h
  -- transmitters
  case frameStart n => exact lineEvent_within n _ (within_beginNext (.refl s) n) fun h => keptInside_post.beginNext trivial h
  case preambleEnd n =>
    exact lineEvent_within n _ (within_endPreamble (.refl s) n)
      fun h => keptInside_post.enterIdle trivial (keptInside_post.endSending trivial h)
  case characterBoundary n =>
    exact lineEvent_within n _ (within_boundary (.refl s) n) fun h => keptInside_post.boundary trivial h
  case breakInEnd n => exact lineEvent_within n _ (within_endBreakIn (.refl s) n) fun h => keptInside_post.endBreakIn trivial h
  case guardExpiry n => exact lineEvent_within n _ (within_expireGuard (.refl s) n) fun h => keptInside_post.expireGuard trivial h
  case answerTimeoutExpiry n =>
    exact lineEvent_within n _ (within_expireAnswer (.refl s) n) fun h => keptInside_post.expireAnswer trivial h
  case collision n => exact lineEvent_within n _ (within_collide (.refl s) n) fun h => keptInside_post.collide trivial h
  case backoffExpiry n =>
    exact lineEvent_within n _ (within_expireBackoff (.refl s) n) fun h => keptInside_post.expireBackoff trivial h
  case transmitHeadReadCompletion =>
    exact transmitterCompletion_carried (fun h n v => within_headReadDone h n v)
      fun n v _ h => keptInside_post.headReadDone trivial h v
  case textReadCompletion =>
    exact transmitterCompletion_carried (fun h n v => within_textReadDone h n v)
      fun n v _ h => keptInside_post.textReadDone trivial h v
  case transmitLinkReadCompletion =>
    exact transmitterCompletion_carried (fun h n v => within_textLinkDone h n v)
      fun n v _ h => keptInside_post.textLinkDone trivial h v

/-! ## The part left to itself -/

/-- A change of the inputs, of the waiting commands and of the free values taken keeps the invariant. -/
theorem Sound.waits (h : Sound s) (evs : List Instr) (ins : List PinInput) (k : Nat) :
    Sound { s with pending := evs, inputs := ins, freeCount := k } := { h with }

theorem Sound.pins (h : Sound s) (p : Pins) : Sound { s with pins := p } := { h with }

/-- A change of the lines that keeps each receive FIFO. -/
theorem Sound.lines (h : Sound s) {ls : Vector LineUnit 24}
    (hf : ∀ n : LineNo, ls[n.val].rx.fifo = s.lines[n.val].rx.fifo) : Sound { s with lines := ls } :=
  { h with fifo := fun n => (congrArg List.length (hf n)).trans_le (h.fifo n) }

theorem Sound.divider (h : Sound s) (k : Nat) : Sound { s with office := { s.office with divider := k } } := { h with }

theorem sound_queueEvents (h : Sound s) (evs : List Instr) : Sound (queueEvents evs s) := h.waits _ s.inputs _

/-- A part of a line's tick leaves the receive FIFO alone. -/
abbrev FifoKept (l : LineUnit) (t : Ticked) : Prop := t.1.rx.fifo = l.rx.fifo

theorem FifoKept.andThen {l : LineUnit} {t : Ticked} {f : LineUnit → Ticked} (h : FifoKept l t) (hf : FifoKept t.1 (f t.1)) :
    FifoKept l (t.andThen f) := hf.trans h

theorem tickRuns_fifo (n : LineNo) (mark : Bool) (l : LineUnit) : FifoKept l (tickRuns n mark l) := by
  unfold FifoKept tickRuns
  split <;> rfl

theorem tickCharacter_fifo (n : LineNo) (mark : Bool) (l : LineUnit) : FifoKept l (tickCharacter n mark l) := by
  unfold FifoKept tickCharacter
  dsimp only
  split_ifs <;> rfl

theorem tickSampler_fifo (n : LineNo) (mark : Bool) (l : LineUnit) : FifoKept l (tickSampler n mark l) := by
  unfold tickSampler
  split
  · unfold FifoKept
    split <;> rfl
  · exact rfl
  · exact tickCharacter_fifo n mark l

theorem tickIdleTimer_fifo (h : HeldSetup) (n : LineNo) (mark : Bool) (l : LineUnit) : FifoKept l (tickIdleTimer h n mark l) := by
  unfold FifoKept tickIdleTimer
  split
  · split <;> rfl
  · rfl

theorem tickSeizure_fifo (h : HeldSetup) (n : LineNo) (mark : Bool) (l : LineUnit) : FifoKept l (tickSeizure h n mark l) := by
  unfold FifoKept tickSeizure
  split <;> rfl

theorem tickSending_fifo (n : LineNo) (mark : Bool) (l : LineUnit) : FifoKept l (tickSending n mark l) := by
  unfold FifoKept tickSending
  split
  · rfl
  · dsimp only
    split <;> rfl

theorem sampleTick_fifo (h : HeldSetup) (n : LineNo) (mark : Bool) (l : LineUnit) : FifoKept l (sampleTick h n mark l) :=
  (tickRuns_fifo n mark l).andThen (tickSampler_fifo n mark _) |>.andThen (tickIdleTimer_fifo h n mark _)
    |>.andThen (tickSeizure_fifo h n mark _) |>.andThen (f := tickAnswer h n) rfl |>.andThen (tickSending_fifo n mark _)
    |>.andThen (f := tickRecent mark) rfl

theorem cycleLine_fifo (h : HeldSetup) (n : LineNo) (mark : Bool) (l : LineUnit) : FifoKept l (cycleLine h n mark l) := by
  unfold cycleLine
  split_ifs
  · exact rfl
  · exact sampleTick_fifo h n mark { l with divider := 0 }
  · exact rfl

theorem sound_cycleOne {acc : State × List Instr} (h : Sound acc.1) (n : LineNo) : Sound (cycleOne acc n).1 := by
  refine h.lines fun m => ?_
  rw [Vector.getElem_set]
  split
  · next e =>
    obtain rfl : n = m := Fin.ext e
    exact cycleLine_fifo _ _ _ _
  · rfl

theorem sound_foldl_cycleOne (ns : List LineNo) {acc : State × List Instr} (h : Sound acc.1) :
    Sound (ns.foldl cycleOne acc).1 := by
  induction ns generalizing acc with
  | nil => exact h
  | cons n ns ih => exact ih (sound_cycleOne h n)

/-- A cycle of the reference clock changes the seconds divider, the lines and the waiting commands (R43, R57). -/
theorem sound_clockCycle (h : Sound s) : Sound (clockCycle s) := by
  unfold clockCycle
  dsimp only
  split
  · exact h
  · refine sound_queueEvents (sound_foldl_cycleOne _ ?_) _
    unfold cycleSeconds
    split
    · exact h.divider _
    · exact h

/-- A read that the processor presents is an event of its own. -/
theorem sound_processorRead (addr : Addr) (h : Sound s) : Sound (settle (processorRead addr s)) := by
  refine Ready.sound ?_
  cases hr : s.resetIn with
  | false => exact (near_processorRead addr s).ready hr h.ready
  | true =>
    unfold processorRead
    rw [if_pos hr]
    exact ready_holdAccess _ h.ready

theorem sound_applyInput (i : PinInput) (h : Sound s) : Sound (applyInput i s) := by
  unfold applyInput
  split
  · exact h.pins _
  · next level =>
    split
    · exact h.waits _ s.inputs s.freeCount
    · next hn =>
      unfold holdLevel
      split
      · next hl =>
        rw [hl] at hn
        rw [if_pos (by simpa using hn)]
        exact h
      · exact h.pins _
  · exact h.pins _
  · exact h.pins _
  · split
    · exact h
    · exact sound_processorRead _ h
  · split
    · exact h
    · exact sound_clockCycle (h.waits s.pending _ s.freeCount)

theorem sound_idle (h : Sound s) : Sound (idle s) := by
  unfold idle
  split
  · exact sound_queueEvents h _
  · split
    · exact sound_applyInput _ (h.waits s.pending _ s.freeCount)
    · exact sound_clockCycle h

end Sys2Proof.Machine

/-! PROOFS. The statements about every command and every step: the front command, the invariant, the store and the
configuration. -/

namespace Sys2Proof.EveryStep
open Sys2Proof.Machine

/-- Settles O1: it is the first branch of `step`. -/
theorem stepRunsFrontCommand : Obligations.StepRunsFrontCommand := by
  intro s c rest h
  unfold step
  rw [h]

/-- Settles O2, field by field. -/
theorem resetSound : Obligations.ResetSound where
  store := rfl
  queue := Nat.zero_le _
  fifo n := by
    show (Vector.replicate 24 LineUnit.reset)[n.val].rx.fifo.length ≤ _
    rw [Vector.getElem_replicate]
    exact Nat.zero_le _
  post := Nat.zero_le _
  inReset h := by cases h
  busy _ := .inr ⟨rfl, rfl⟩
  attn := rfl
  offers := rfl
  lock := rfl
  map h := by cases h

/-- A command that answers keeps the invariant: its body keeps `Ready`, and the end of the event makes it `Sound`. -/
theorem sound_exec {c : Instr} {s t : State} (h : Sound s) (e : exec c s = .next t) : Sound t := by
  obtain rfl | ⟨u, hu, rfl⟩ := (e ▸ exec_carried c s).of_next
  · exact h
  · exact (hu.ready h.ready).sound

/-- Settles O3: a step is a command (`sound_exec`) or the part left to itself (`sound_idle`). -/
theorem stepKeepsSound : Obligations.StepKeepsSound := by
  intro s t h e
  unfold step at e
  split at e
  · next c rest _ => exact sound_exec (h.waits rest s.inputs s.freeCount) e
  · cases e
    exact sound_idle h

/-- Settles O4: the body of a command serves the store at most by the cycle in progress, the end of the event not at all, and
a write leaves the other words as they were. -/
theorem storeChangesOnlyByCycle : Obligations.StoreChangesOnlyByCycle := by
  intro c s t e
  obtain rfl | ⟨u, hu, rfl⟩ := (e ▸ exec_carried c s).of_next
  · exact .inl rfl
  · rw [(within_settle (.refl u)).store]
    obtain hsame | ⟨cy, w, hc, hw, hwrite⟩ := hu.store
    · exact .inl hsame
    · refine .inr ⟨cy, w, hc, hw, hwrite, fun a ha => ?_⟩
      rw [hwrite]
      exact Memory.write_frame _ _ _ _ ha

theorem setupWordDone_straps (v : Word) (s : State) : (setupWordDone v s).path.straps = s.path.straps := by
  unfold setupWordDone
  dsimp only
  split
  · split
    · rfl
    · unfold validateSetup
      dsimp only
      split
      · exact (congrArg PathUnit.straps (within_pumpWalker (within_updWalker (.refl _) _)).path : _)
      · rfl
  · rfl

/-- A setup read's completion keeps the strap sample. -/
theorem setupReadCompletion_straps {s t : State} (e : execSetupReadCompletion s = .next t) :
    t.path.straps = s.path.straps := by
  have h : AnswersBy (fun u => u.path.straps = s.path.straps) s (execSetupReadCompletion s) :=
    completion_answers fun r _ _ => (setupWordDone_straps _ _).trans (setupKept_finishRequest r s).straps
  obtain rfl | ⟨u, hu, rfl⟩ := (e ▸ h).of_next
  · rfl
  · exact (within_settle (.refl u)).setupKept.straps.trans hu

/-- Settles O5: by what every command's body keeps of the setup and of the station table; the end of the event keeps both. -/
theorem configurationKept : Obligations.ConfigurationKept := by
  refine ⟨fun c s t e => ?_, fun c s t e => ?_⟩
  · obtain rfl | ⟨u, hu, rfl⟩ := (e ▸ exec_answers c s).of_next
    · exact ⟨.inl rfl, .inl rfl⟩
    · have hend : SetupKept u (settle u) := (within_settle (.refl u)).setupKept
      obtain hk | ⟨hc, hs⟩ | hd := hu
      · exact ⟨.inl (hend.held.trans hk.held), .inl (hend.straps.trans hk.straps)⟩
      · subst hc
        exact ⟨.inr (.inl ⟨rfl, hs⟩), .inl (setupReadCompletion_straps e)⟩
      · exact ⟨.inr (.inr hd), .inr hd⟩
  · obtain rfl | ⟨u, hu, rfl⟩ := (e ▸ exec_carried c s).of_next
    · exact .inl rfl
    · rw [(within_settle (.refl u)).router]
      obtain (hsame | hcommit) | hd := hu.table
      · exact .inl hsame
      · exact .inr (.inl hcommit)
      · exact .inr (.inr hd)

end Sys2Proof.EveryStep

/-! SUPPORT. The Store Port as a value of its own: what the arbiter, a placement and the waiting list make of it, so that the
state after an event can be written out field by field; and how an event ends whose body is so written out. -/

namespace Sys2Proof.Machine

/-! ## The Store Port by itself (R8 to R10) -/

/-- What the arbiter makes of a Store Port (R10). -/
def startedPort (p : StorePort) : StorePort := (startCycle { State.reset with port := p }).port

/-- What a placement makes of a Store Port (R8). -/
def placedPort (r : Req) (p : StorePort) : StorePort := startedPort { p with queue := p.queue ++ [r] }

/-- What it makes of a Store Port that an issuer waits for it (R9). -/
def waitingPort (i : Issuer) (p : StorePort) : StorePort :=
  if p.waiting.contains i then p else { p with waiting := p.waiting ++ [i] }

/-- What it makes of a Store Port that an issuer leaves the waiting list (R9). -/
def leftPort (i : Issuer) (p : StorePort) : StorePort := { p with waiting := p.waiting.filter (fun j => j != i) }

/-- The requests with a Store Port that are not completed. -/
def portRequests (p : StorePort) : List Req :=
  (match p.cycle with
    | some (.internal r) => [r]
    | _ => []) ++ p.queue

theorem requests_eq (s : State) : requests s = portRequests s.port := rfl

/-- The arbiter looks at the Store Port alone. -/
theorem startCycle_congr {s u : State} (h : s.port = u.port) : (startCycle s).port = (startCycle u).port := by
  unfold startCycle
  rw [h]
  rcases hc : u.port.cycle with _ | c
  · rcases u.port.fwd with _ | a <;> rcases u.port.queue with _ | ⟨r, rest⟩
    · exact h
    · exact congrArg (fun p : StorePort => { p with queue := rest, cycle := some (.internal r), lastServed := .internal }) h
    · exact congrArg (fun p : StorePort =>
        { p with fwd := none, cycle := some (.forwarded a), lastServed := .processor }) h
    · rcases u.port.lastServed with _ | _
      · exact congrArg (fun p : StorePort =>
          { p with queue := rest, cycle := some (.internal r), lastServed := .internal }) h
      · exact congrArg (fun p : StorePort =>
          { p with fwd := none, cycle := some (.forwarded a), lastServed := .processor }) h
  · exact h

theorem startCycle_port (s : State) : startCycle s = { s with port := startedPort s.port } := by
  have h : (startCycle s).port = startedPort s.port := startCycle_congr rfl
  rw [startCycle_eq, h]

theorem place_port (r : Req) (s : State) : place r s = { s with port := placedPort r s.port } := startCycle_port _

theorem waitFor_port (i : Issuer) (s : State) : waitFor i s = { s with port := waitingPort i s.port } := by
  unfold waitFor waitingPort
  split <;> rfl

theorem leaveWaiting_port (i : Issuer) (s : State) : leaveWaiting i s = { s with port := leftPort i s.port } := rfl

@[simp] theorem portRequests_started (p : StorePort) : portRequests (startedPort p) = portRequests p :=
  requests_startCycle { State.reset with port := p }

@[simp] theorem portRequests_placed (r : Req) (p : StorePort) : portRequests (placedPort r p) = portRequests p ++ [r] :=
  requests_place r { State.reset with port := p }

@[simp] theorem portRequests_waiting (i : Issuer) (p : StorePort) : portRequests (waitingPort i p) = portRequests p := by
  unfold waitingPort
  split <;> rfl

@[simp] theorem portRequests_left (i : Issuer) (p : StorePort) : portRequests (leftPort i p) = portRequests p := rfl

@[simp] theorem startedPort_waiting (p : StorePort) : (startedPort p).waiting = p.waiting :=
  startCycle_waiting { State.reset with port := p }

@[simp] theorem placedPort_waiting (r : Req) (p : StorePort) : (placedPort r p).waiting = p.waiting :=
  place_waiting r { State.reset with port := p }

theorem placedPort_queue_le (r : Req) (p : StorePort) : (placedPort r p).queue.length ≤ p.queue.length + 1 :=
  place_queue_le r { State.reset with port := p }

/-- The queue has room for `k` more requests and no issuer waits (R9). -/
abbrev PortRoom (k : Nat) (p : StorePort) : Prop := p.waiting = [] ∧ p.queue.length + k ≤ Config.queuePlaces

theorem PortRoom.placed {k : Nat} {p : StorePort} (h : PortRoom (k + 1) p) (r : Req) : PortRoom k (placedPort r p) :=
  ⟨by rw [placedPort_waiting]; exact h.1, by have := placedPort_queue_le r p; have := h.2; omega⟩

theorem PortRoom.mono {j k : Nat} {p : StorePort} (h : PortRoom k p) (hj : j ≤ k) : PortRoom j p :=
  ⟨h.1, by have := h.2; omega⟩

theorem admits_of_room {k : Nat} {s : State} (h : PortRoom (k + 1) s.port) : admits s = true := by
  have := h.2
  simp only [admits, h.1, List.isEmpty_nil, Bool.and_true, decide_eq_true_eq]
  omega

theorem admits_of_waiting {s : State} (h : s.port.waiting ≠ []) : admits s = false := by
  simp [admits, h]

/-- Requests placed one after another. -/
def placedAll (rs : List Req) (p : StorePort) : StorePort := rs.foldl (fun p r => placedPort r p) p

@[simp] theorem placedAll_nil (p : StorePort) : placedAll [] p = p := rfl

@[simp] theorem placedAll_cons (r : Req) (rs : List Req) (p : StorePort) :
    placedAll (r :: rs) p = placedAll rs (placedPort r p) := rfl

@[simp] theorem portRequests_placedAll (rs : List Req) (p : StorePort) :
    portRequests (placedAll rs p) = portRequests p ++ rs := by
  induction rs generalizing p with
  | nil => simp
  | cons r rs ih => simp [ih]

@[simp] theorem placedAll_waiting (rs : List Req) (p : StorePort) : (placedAll rs p).waiting = p.waiting := by
  induction rs generalizing p with
  | nil => rfl
  | cons r rs ih => simp [ih]

theorem PortRoom.placedAll {k : Nat} {rs : List Req} {p : StorePort} (h : PortRoom (rs.length + k) p) :
    PortRoom k (placedAll rs p) := by
  induction rs generalizing p with
  | nil => simpa using h
  | cons r rs ih => exact ih (PortRoom.placed (h.mono (by simp only [List.length_cons]; omega)) r)

/-! ## An issuer's requests, one after another (R9) -/

section
variable {i : Issuer} {next : State → Option Req} {placed : State → State} {s : State} {r : Req} {k : Nat}

theorem pump_none (h : next s = none) : pump i next placed k s = s := by
  cases k with
  | zero => rfl
  | succ k => unfold pump; rw [h]

theorem pump_placed (h : next s = some r) (ha : admits s = true) :
    pump i next placed (k + 1) s = pump i next placed k (placed (place r s)) := by
  rw [pump, h]
  exact if_pos ha

theorem pump_waits (h : next s = some r) (ha : admits s = false) : pump i next placed (k + 1) s = waitFor i s := by
  rw [pump, h]
  exact if_neg (by simp [ha])

end

/-! ## The end of an event whose body is written out -/

section
variable {s e t u : State} {p : StorePort} {r : Record}

theorem samePart_eventEnd (e : State) : SamePart e (eventEnd e) := by
  unfold SamePart
  rw [eventEnd_eq]

/-- Beside the Store Port nothing else changed. -/
theorem settle_port (h : Quiet e) : SamePart e (settle { e with port := p }) := by
  rw [settle_quiet (s := { e with port := p }) h, eventEnd_eq]
  rfl

theorem requests_settle (h : Quiet e) : requests (settle { e with port := p }) = portRequests p := by
  rw [settle_quiet (s := { e with port := p }) h, requests_eventEnd]
  rfl

theorem waiting_settle (h : Quiet e) : (settle { e with port := p }).port.waiting = p.waiting := by
  rw [settle_quiet (s := { e with port := p }) h]
  exact startCycle_waiting _

/-- A change of the Store Port is left open by `Offers`. -/
theorem Offers.of_port (h : Offers r { e with port := p } t) : Offers r e t where
  part := by
    have hpart : { t with port := p, report := e.report } = { e with port := p } := h.part
    exact congrArg (fun x : State => { x with port := e.port }) hpart
  write := h.write
  read := h.read
  badRead := h.badRead
  attn := h.attn
  accepted := h.accepted
  discarded := h.discarded

/-- An event that offers one report, whatever it does at the Store Port. -/
theorem offers_settle (r : Record) (h : Quiet e) : Offers r e (settle (offerReport r { e with port := p })) := by
  rw [settle_offerReport (s := { e with port := p }) h]
  exact (offers_takeReport r { e with port := p }).of_port

end

end Sys2Proof.Machine

/-! SUPPORT. What single operations on one line make of the state, case by case: the idle point, the end of an event of a line,
and the operations of samplers and transmitters that need no request. -/

namespace Sys2Proof.Machine

variable {s e : State} {n : LineNo}

/-- A line event whose body is written out. -/
theorem lineEvent_ends {due : LineUnit → Bool} {f : State → State} (h : Quiet s) (hd : due s.lines[n] = true)
    (hf : f s = e) (he : Quiet e) : lineEvent n due f s = .next (eventEnd e) := by
  rw [lineEvent_due h.1 hd, hf, settle_quiet he]

theorem lineEvent_quiet {due : LineUnit → Bool} {f : State → State} (h : Quiet s) (hd : due s.lines[n] = true)
    (hf : Quiet (f s)) : lineEvent n due f s = .next (eventEnd (f s)) := lineEvent_ends h hd rfl hf

theorem enabled_iff {l : LineUnit} : enabled l = true ↔ l.tx.state ≠ .off := by
  unfold enabled
  simp

/-- Line `n` after it was changed. -/
@[simp] theorem updLine_line (f : LineUnit → LineUnit) (s : State) : (updLine n f s).lines[n.val] = f s.lines[n.val] :=
  Vector.getElem_set_self _

theorem lines_set_self (l : LineUnit) (ls : Vector LineUnit 24) : (ls.set n.val l n.isLt)[n.val] = l :=
  Vector.getElem_set_self _

/-- With no transfer pending a changed line has none. -/
theorem checkIdlePoint_updLine {f : LineUnit → LineUnit} (h : (f s.lines[n.val]).settingsPending = false) :
    checkIdlePoint n (updLine n f s) = updLine n f s :=
  checkIdlePoint_settled (by rw [updLine_line]; exact h)

/-- Outside ANSWER WAIT a character is no answer (R152). -/
theorem answerCheck_away {c : Code} {framing : Bool} (h : s.lines[n.val].tx.state ≠ .answerWait) :
    answerCheck n c framing s = s := by
  unfold answerCheck
  dsimp only
  split
  · next hs _ _ => exact absurd hs h
  · rfl

/-! ## A completed character (R62, R143) -/

section
variable {c : Code} {noise framing lastMark : Bool} {l : LineUnit}

theorem receiveCharacter_tx (c : Code) (noise framing : Bool) (l : LineUnit) :
    (receiveCharacter c noise framing l).tx = l.tx := by
  unfold receiveCharacter
  split_ifs <;> rfl

theorem receiveCharacter_settingsPending (c : Code) (noise framing : Bool) (l : LineUnit) :
    (receiveCharacter c noise framing l).settingsPending = l.settingsPending := by
  unfold receiveCharacter
  split_ifs <;> rfl

theorem receiveCharacter_echo (h : echoes l = true) :
    receiveCharacter c noise framing l = { l with rx := { l.rx with pendingGap := true } } := by
  unfold receiveCharacter
  rw [if_pos h]

theorem receiveCharacter_lost (h : echoes l = false) (hf : 8 ≤ l.rx.fifo.length) :
    receiveCharacter c noise framing l =
      { l with overrun := min 255 (l.overrun + 1), rx := { l.rx with pendingGap := true } } := by
  unfold receiveCharacter
  rw [if_neg (by simp [h]), if_pos (by exact hf)]

theorem receiveCharacter_discarded (h : echoes l = false) (hf : l.rx.fifo.length < 8) :
    receiveCharacter c noise true l =
      { l with framing := min 255 (l.framing + 1), rx := { l.rx with pendingGap := true } } := by
  unfold receiveCharacter
  rw [if_neg (by simp [h]), if_neg (by exact Nat.not_le.2 hf), if_pos rfl]

theorem receiveCharacter_joins (h : echoes l = false) (hf : l.rx.fifo.length < 8) :
    receiveCharacter c noise false l =
      { l with rx := { l.rx with fifo := l.rx.fifo ++ [⟨c, noise, l.rx.pendingGap⟩], pendingGap := false } } := by
  unfold receiveCharacter
  rw [if_neg (by simp [h]), if_neg (by exact Nat.not_le.2 hf), if_neg (by simp)]

/-- Outside ANSWER WAIT and with no settings pending a completed character changes its line alone. -/
theorem completeCharacter_away (hw : s.lines[n.val].tx.state ≠ .answerWait) (hp : s.lines[n.val].settingsPending = false) :
    completeCharacter n c noise framing lastMark s =
      updLine n (fun l => receiveCharacter c noise framing (completeSampler c noise framing lastMark l)) s := by
  unfold completeCharacter
  rw [answerCheck_away (by rw [updLine_line, receiveCharacter_tx]; exact hw), checkIdlePoint_updLine]
  rw [receiveCharacter_settingsPending]
  exact hp

end

/-- A line event that offers one report, whatever it does at the Store Port. -/
theorem lineEvent_offers {due : LineUnit → Bool} {f : State → State} {p : StorePort} {r : Record} (h : Quiet s)
    (hd : due s.lines[n] = true) (hf : f s = offerReport r { e with port := p }) (he : Quiet e) :
    ∃ t, lineEvent n due f s = .next t ∧ Offers r e t :=
  ⟨_, lineEvent_due h.1 hd, hf ▸ offers_settle r he⟩

/-- A line event that changes nothing else than `e` and the Store Port. -/
theorem lineEvent_part {due : LineUnit → Bool} {f : State → State} {p : StorePort} (h : Quiet s)
    (hd : due s.lines[n] = true) (hf : f s = { e with port := p }) (he : Quiet e) :
    ∃ t, lineEvent n due f s = .next t ∧ SamePart e t ∧ requests t = portRequests p ∧ t.port.waiting = p.waiting :=
  ⟨_, lineEvent_due h.1 hd, hf ▸ settle_port he, hf ▸ requests_settle he, hf ▸ waiting_settle he⟩

/-! ## Changes of one line, one after another -/

theorem updLine_updLine (f g : LineUnit → LineUnit) (s : State) :
    updLine n f (updLine n g s) = updLine n (fun l => f (g l)) s := by
  unfold updLine
  simp

/-- A change of a line and an offer of a report do not meet. -/
theorem updLine_offerReport (f : LineUnit → LineUnit) (r : Record) (s : State) :
    updLine n f (offerReport r s) = offerReport r (updLine n f s) := rfl

theorem updTx_updTx (f g : Transmitter → Transmitter) (s : State) :
    updTx n f (updTx n g s) = updTx n (fun t => f (g t)) s := updLine_updLine _ _ s

theorem updLine_self {f : LineUnit → LineUnit} (h : f s.lines[n.val] = s.lines[n.val]) : updLine n f s = s := by
  unfold updLine
  simp [h]

/-- Two changes that make the same of the line as it stands are one. -/
theorem updLine_congr {f g : LineUnit → LineUnit} (h : f s.lines[n.val] = g s.lines[n.val]) :
    updLine n f s = updLine n g s := by
  unfold updLine
  simp [h]

theorem updTx_eq (f : Transmitter → Transmitter) (s : State) :
    updTx n f s = { s with lines := s.lines.set n { s.lines[n] with tx := f s.lines[n].tx } } := rfl

@[simp] theorem updTx_line (f : Transmitter → Transmitter) (s : State) :
    (updTx n f s).lines[n.val] = { s.lines[n.val] with tx := f s.lines[n.val].tx } := updLine_line _ s

/-! ## Entry to IDLE (R108, R129, R139, R144) -/

/-- The transmitter in IDLE. -/
def idleTx (t : Transmitter) : Transmitter := { t with state := .idle, send := true }

/-- The transmitter in PAUSE. -/
def pausedTx (t : Transmitter) : Transmitter := { t with state := .pause, send := true }

/-- The transmitter in GUARD, its count at 0. -/
def guardingTx (t : Transmitter) : Transmitter := { t with state := .guarding, guardCount := some 0, send := true }

theorem selection_empty (h : s.du.queues[n.val] = []) : selection s n = none := by
  simp [selection, h, pickBest]

/-- With an empty queue an occasion of a selection brings nothing about. -/
theorem idleOccasion_empty (h : s.du.queues[n.val] = []) : idleOccasion n s = s := by
  unfold idleOccasion
  split
  · simp [selectOr, selection_empty h]
  · simp [tellQueue, h]

/-- A party line that is not backing off guards its queue (R144). -/
theorem idleOccasion_guards (ht : s.lines[n.val].active.type = .party) (hq : s.du.queues[n.val] ≠ [])
    (hb : s.lines[n.val].tx.backingOff = false) : idleOccasion n s = updTx n guardingTx s := by
  simp only [idleOccasion, Fin.getElem_fin, ht, tellQueue, ne_eq, hq, not_false_eq_true, hb, Bool.false_eq_true, and_self,
    if_true]
  rfl

/-- In break recovery a point-to-point line pauses instead of entering IDLE (R139). -/
theorem enterIdle_pauses (h : pauses s.lines[n.val] = true) : enterIdle n s = updTx n pausedTx s := by
  unfold enterIdle
  rw [if_pos (by exact h)]
  rfl

/-- With no settings pending an entry to IDLE is an occasion of a selection (R108). -/
theorem enterIdle_settled (h : pauses s.lines[n.val] = false) (hp : s.lines[n.val].settingsPending = false) :
    enterIdle n s = idleOccasion n (updTx n idleTx s) := by
  have hstay : transferIfIdle n (updTx n idleTx s) = updTx n idleTx s := by
    simp [transferIfIdle, hp]
  have hpause : ¬ pauses (updTx n idleTx s).lines[n] = true := by
    simp only [Fin.getElem_fin, updTx_line, Bool.not_eq_true]
    exact h
  unfold enterIdle arriveIdle
  rw [if_neg (by simpa using h)]
  show (if pauses (transferIfIdle n (updTx n idleTx s)).lines[n] then _ else
    idleOccasion n (updTx n idleTx (transferIfIdle n (updTx n idleTx s)))) = _
  rw [hstay, if_neg hpause, updTx_updTx]
  rfl

theorem enterIdle_empty (h : pauses s.lines[n.val] = false) (hp : s.lines[n.val].settingsPending = false)
    (hq : s.du.queues[n.val] = []) : enterIdle n s = updTx n idleTx s := by
  rw [enterIdle_settled h hp, idleOccasion_empty (s := updTx n idleTx s) hq]

theorem enterIdle_guards (hp : s.lines[n.val].settingsPending = false) (ht : s.lines[n.val].active.type = .party)
    (hq : s.du.queues[n.val] ≠ []) (hb : s.lines[n.val].tx.backingOff = false) :
    enterIdle n s = updTx n guardingTx s := by
  have ht' : (updTx n idleTx s).lines[n.val].active.type = .party := by rw [updTx_line]; exact ht
  have hb' : (updTx n idleTx s).lines[n.val].tx.backingOff = false := by rw [updTx_line]; exact hb
  rw [enterIdle_settled (by simp [pauses, isParty, ht]) hp, idleOccasion_guards ht' hq hb', updTx_updTx]
  rfl

theorem pauses_iff {l : LineUnit} : pauses l = true ↔ l.active.type = .pointToPoint ∧ l.recovery = true := by
  unfold pauses isParty
  cases l.active.type <;> simp

theorem pauses_eq_false_iff {l : LineUnit} : pauses l = false ↔ l.active.type = .party ∨ l.recovery = false := by
  unfold pauses isParty
  cases l.active.type <;> simp

/-! ## Steady mark (R54, R139) -/

/-- A line as 64 marks have been counted on it. -/
def markedLine (l : LineUnit) : LineUnit :=
  { markSample 64 l with inBreak := false, sampler := { l.sampler with state := .waitStart } }

/-- The line restored where it was faulted. -/
def restored (n : LineNo) (s : State) : State := if s.lines[n].faulted then restoreLoop n s else s

/-- The line with break recovery ended where it was in it. -/
def recovered (n : LineNo) (s : State) : State := if s.lines[n].recovery then endRecovery n s else s

theorem steadyMark_eq (n : LineNo) (s : State) :
    steadyMark n s = checkIdlePoint n (recovered n (restored n (updLine n markedLine s))) := rfl

theorem restored_sound (h : s.lines[n.val].faulted = false) : restored n s = s := by
  unfold restored
  rw [if_neg (by simp [h])]

/-- A restore that is no occasion of a selection (R54, R108). -/
theorem restoreLoop_plain (h : s.lines[n.val].active.type = .party ∨ s.lines[n.val].tx.state ≠ .idle) :
    restoreLoop n s = offerReport (plainReport .lineRestored n.val 65535 0 s.office.clock)
      (updLine n (fun l => { l with faulted := false }) s) := by
  unfold restoreLoop
  dsimp only
  rw [if_neg]
  · rfl
  · rintro ⟨hi, ht⟩
    have hi' : s.lines[n.val].tx.state = .idle := by simpa [offerReport, updLine] using hi
    have ht' : s.lines[n.val].active.type ≠ .party := by simpa [offerReport, updLine, isParty] using ht
    exact h.elim ht' (· hi')

/-- The end of break recovery on a line that does not pause clears the record of it. -/
theorem recovered_plain (h : s.lines[n.val].recovery = false ∨ s.lines[n.val].tx.state ≠ .pause) :
    recovered n s = updLine n (fun l => { l with recovery := false }) s := by
  unfold recovered
  split
  · next hr =>
    have hs : s.lines[n.val].tx.state ≠ .pause := h.resolve_left (by simpa using hr)
    unfold endRecovery
    dsimp only
    rw [if_neg (by simpa [updLine] using hs)]
  · next hr =>
    refine (updLine_self ?_).symm
    have : s.lines[n.val].recovery = false := by simpa using hr
    rw [← this]

/-- A PAUSE that ends with an empty queue ends in IDLE (R139). -/
theorem endRecovery_paused (hs : s.lines[n.val].tx.state = .pause) (hp : s.lines[n.val].settingsPending = false)
    (hq : s.du.queues[n.val] = []) :
    endRecovery n s = updTx n idleTx (updLine n (fun l => { l with recovery := false }) s) := by
  unfold endRecovery
  dsimp only
  rw [if_pos (by simpa using hs), enterIdle_empty (s := updLine n (fun l => { l with recovery := false }) s)
    (by rw [updLine_line, pauses_eq_false_iff]; exact .inr rfl) (by rw [updLine_line]; exact hp) hq]

/-! ## Selection (R108) -/

theorem maySelect_faulted (hf : s.lines[n.val].faulted = true) (ht : s.lines[n.val].active.type = .pointToPoint) :
    maySelect s n = false := by
  simp [maySelect, hf, ht]

theorem selection_of_not (h : maySelect s n = false) : selection s n = none := by
  simp [selection, h]

end Sys2Proof.Machine

/-! PROOFS. The statements about samplers and simple line events. -/

namespace Sys2Proof.Samplers
open Sys2Proof.Machine

/-- Settles O25: the character's own change of the line is the event's, case by case. -/
theorem characterCompletion : Obligations.CharacterCompletion := by
  intro s n c noise framing lastMark l hq hon hwait hpend hl
  have hexec : exec (.characterCompletion n c noise framing lastMark) s =
      .next (eventEnd { s with lines := s.lines.set n (receiveCharacter c noise framing l) }) := by
    subst hl
    exact lineEvent_ends hq (enabled_iff.2 hon) (completeCharacter_away hwait hpend) hq
  rw [hexec]
  refine ⟨fun he => ?_, fun he hf => ?_, fun he hf hfr => ?_, fun he hf hfr => ?_⟩
  · rw [receiveCharacter_echo he]
  · rw [receiveCharacter_lost he hf]
  · rw [hfr, receiveCharacter_discarded he hf]
  · rw [hfr, receiveCharacter_joins he hf]

/-- Settles O33: a start edge and a false start change their line alone. -/
theorem startEdge : Obligations.StartEdge := by
  intro s n l hq hon hl
  have hen : enabled s.lines[n] = true := enabled_iff.2 hon
  have hfalse : ∀ space, s.lines[n].sampler.state = .inCharacter → s.lines[n].settingsPending = false →
      exec (.falseStart n space) s = .next (eventEnd (updLine n (falseStart space) s)) := fun space hs hp => by
    have hset : (falseStart space s.lines[n.val]).settingsPending = false := by
      unfold falseStart
      split <;> exact hp
    have hdue : (enabled s.lines[n] && s.lines[n].sampler.state == .inCharacter) = true := by rw [hen, hs]; rfl
    show execFalseStart n space s = _
    exact lineEvent_ends hq hdue (checkIdlePoint_updLine hset) hq
  refine ⟨fun hs hb => ?_, fun hs hp => ?_, fun hs hp => ?_⟩
  · have hdue : (enabled s.lines[n] && s.lines[n].sampler.state != .inCharacter && !s.lines[n].inBreak) = true := by
      simp only [hen, hb, bne_iff_ne.2 hs, Bool.not_false, Bool.and_self]
    have hexec : execStartEdge n s = .next (eventEnd (updLine n Machine.startEdge s)) := lineEvent_quiet hq hdue hq
    show execStartEdge n s = _
    rw [hexec, hl]
    rfl
  · rw [hfalse true hs hp, hl]
    rfl
  · rw [hfalse false hs hp]
    rfl

/-- Settles O31: the body of the command by the faulted flag. -/
theorem loopOpen : Obligations.LoopOpen := by
  refine ⟨fun s n l hq hon hl => ⟨fun hf => ?_, fun hf => ?_⟩, fun s n hf ht => selection_of_not (maySelect_faulted hf ht)⟩
  · have hbody : openLoop n s = offerReport (plainReport .lineFault n.val 65535 0 s.office.clock)
        { s with lines := s.lines.set n { l with faulted := true } } := by
      subst hl
      unfold openLoop
      dsimp only
      rw [if_neg (by simpa using hf)]
      simp [updLine_eq, spaceSample, record, plainReport, Config.none16]
    exact lineEvent_offers (e := { s with lines := s.lines.set n { l with faulted := true } }) hq (enabled_iff.2 hon) hbody hq
  · have hbody : openLoop n s = { s with lines := s.lines.set n l } := by
      subst hl
      unfold openLoop
      rw [if_pos hf]
      rfl
    show execLoopOpen n s = _
    exact lineEvent_ends hq (enabled_iff.2 hon) hbody hq

/-- Settles O32: the restore and the end of break recovery, each where it comes about. -/
theorem steadyMark : Obligations.SteadyMark := by
  intro s n l hq hon hp hl
  have hen : enabled s.lines[n] = true := enabled_iff.2 hon
  have hmark : (updLine n markedLine s).lines[n.val] = l := by rw [updLine_line, hl]; rfl
  refine ⟨fun hf hr => ?_, fun hf hr hi => ?_, fun hf hr ht hs hqueue => ?_⟩
  · have hbody : Machine.steadyMark n s = { s with lines := s.lines.set n { l with recovery := false } } := by
      rw [steadyMark_eq, restored_sound (by rw [hmark, hl]; exact hf), recovered_plain (by rw [hmark, hl]; exact hr),
        updLine_updLine, checkIdlePoint_updLine (by exact hp), hl]
      rfl
    show execSteadyMark n s = _
    exact lineEvent_ends hq hen hbody hq
  · have hrest : restoreLoop n (updLine n markedLine s) = offerReport (plainReport .lineRestored n.val 65535 0 s.office.clock)
        (updLine n (fun l => { markedLine l with faulted := false }) s) := by
      rw [restoreLoop_plain (by rw [hmark, hl]; exact hi), updLine_updLine]
      rfl
    have hline : (restoreLoop n (updLine n markedLine s)).lines[n.val] = { l with faulted := false } := by
      rw [hrest, hl]
      exact updLine_line (fun l => { markedLine l with faulted := false }) s
    have hbody : Machine.steadyMark n s = offerReport (plainReport .lineRestored n.val 65535 0 s.office.clock)
        { s with lines := s.lines.set n { l with faulted := false, recovery := false } } := by
      rw [steadyMark_eq, restored, if_pos (by rw [Fin.getElem_fin, hmark, hl]; exact hf),
        recovered_plain (by rw [hline, hl]; exact hr), checkIdlePoint_updLine (by rw [hline, hl]; exact hp), hrest]
      rw [updLine_offerReport, updLine_updLine, hl]
      rfl
    exact lineEvent_offers (e := { s with lines := s.lines.set n { l with faulted := false, recovery := false } })
      hq hen hbody hq
  · have hbody : Machine.steadyMark n s = { s with
        lines := s.lines.set n { l with recovery := false, tx := { l.tx with state := .idle, send := true } } } := by
      rw [steadyMark_eq, restored_sound (by rw [hmark, hl]; exact hf), recovered,
        if_pos (by rw [Fin.getElem_fin, hmark, hl]; exact hr),
        endRecovery_paused (s := updLine n markedLine s) (by rw [hmark, hl]; exact hs) (by rw [hmark, hl]; exact hp) hqueue,
        updTx, updLine_updLine, updLine_updLine, checkIdlePoint_updLine (by exact hp), hl]
      rfl
    show execSteadyMark n s = _
    exact lineEvent_ends hq hen hbody hq

end Sys2Proof.Samplers

/-! SUPPORT. What the transmitters' operations make of the state, case by case: sendings and text reads, the drop of the
delivery in hand, the entry to OFF, a taken delivery, and the completion of a transmitter's read. -/

namespace Sys2Proof.Machine

variable {s e : State} {n : LineNo}

/-! ## Sendings (R45, R122) -/

/-- The transmitter as a sending begins: only a preamble begins with mark. -/
def sendingTx (k : SendKind) (t : Transmitter) : Transmitter := { t with sending := some ⟨k, 0⟩, send := k == .preamble }

theorem beginSending_eq (n : LineNo) (k : SendKind) (s : State) : beginSending n k s = updTx n (sendingTx k) s := by
  have hlevel : k.level 0 = (k == .preamble) := by cases k <;> rfl
  unfold beginSending
  rw [hlevel]
  rfl

theorem beginNext_preamble (h : s.lines[n.val].tx.owed = some .preamble) :
    beginNext n s = updTx n (fun t => sendingTx .preamble { t with owed := none }) s := by
  unfold beginNext
  simp only [Fin.getElem_fin, h]
  rw [beginSending_eq, updTx_updTx]

theorem beginNext_breakIn (h : s.lines[n.val].tx.owed = some .breakIn) :
    beginNext n s = updTx n (fun t => sendingTx .breakIn { t with owed := none }) s := by
  unfold beginNext
  simp only [Fin.getElem_fin, h]
  rw [beginSending_eq, updTx_updTx]

theorem beginNext_opening {c : Code} {rest : List Code} (ho : s.lines[n.val].tx.owed = none)
    (hs : s.lines[n.val].tx.state = .sending ∨ s.lines[n.val].tx.state = .calling)
    (h : s.lines[n.val].tx.opening = c :: rest) :
    beginNext n s = updTx n (fun t => sendingTx (.frame c s.lines[n].active.stop) { t with opening := rest }) s := by
  unfold beginNext
  simp only [Fin.getElem_fin, ho, h]
  rw [if_pos hs, beginSending_eq, updTx_updTx]

theorem beginNext_text {b : Byte} {rest : List Byte} (ho : s.lines[n.val].tx.owed = none)
    (hs : s.lines[n.val].tx.state = .sending) (hop : s.lines[n.val].tx.opening = [])
    (h : s.lines[n.val].tx.holding = b :: rest) (hlen : s.lines[n.val].tx.lenKnown = true) (hb : isSent b = true) :
    beginNext n s = advanceText n (updTx n (fun t =>
      sendingTx (.frame (sentCode s b) s.lines[n].active.stop) { t with holding := rest }) s) := by
  unfold beginNext
  simp only [Fin.getElem_fin, ho, h, hop]
  rw [if_pos (.inl hs), if_pos (by simp [textReady, hlen, h, hb]), beginSending_eq, updTx_updTx]

/-! ## Text reads (R132, R133) -/

theorem updTx_self {f : Transmitter → Transmitter} (h : f s.lines[n.val].tx = s.lines[n.val].tx) : updTx n f s = s :=
  updLine_self (by rw [h])

/-- A holding that begins with a byte that is sent, or is empty, passes over nothing. -/
theorem skipMarkers_still (h : ∀ b ∈ s.lines[n.val].tx.holding.head?, isSent b = true) :
    updTx n (fun t => { t with holding := t.holding.dropWhile (fun b => !isSent b) }) s = s := by
  refine updTx_self ?_
  have : s.lines[n.val].tx.holding.dropWhile (fun b => !isSent b) = s.lines[n.val].tx.holding := by
    cases hh : s.lines[n.val].tx.holding with
    | nil => rfl
    | cons b rest => simp [h b (by simp [hh])]
  rw [this]

theorem advanceText_none (h : ∀ b ∈ s.lines[n.val].tx.holding.head?, isSent b = true) (hf : nextFetch n s = none) :
    advanceText n s = s := by
  unfold advanceText
  dsimp only
  rw [skipMarkers_still h, hf]

theorem advanceText_fetch {r : Req} (h : ∀ b ∈ s.lines[n.val].tx.holding.head?, isSent b = true)
    (hf : nextFetch n s = some r) : advanceText n s = offerReads n [r] s := by
  unfold advanceText
  dsimp only
  rw [skipMarkers_still h, hf]

theorem nextFetch_holding (h : s.lines[n.val].tx.holding ≠ []) : nextFetch n s = none := by
  simp [nextFetch, h]

theorem nextFetch_reading (h : s.lines[n.val].tx.out ≠ [] ∨ s.lines[n.val].tx.live ≠ 0) : nextFetch n s = none := by
  unfold nextFetch
  dsimp only
  rw [if_neg]
  rintro ⟨-, -, ho, hl, -⟩
  exact h.elim (· ho) (· hl)

theorem nextFetch_ended (h : s.lines[n.val].tx.effLen ≤ s.lines[n.val].tx.readPos) : nextFetch n s = none := by
  unfold nextFetch
  dsimp only
  rw [if_neg]
  rintro ⟨-, -, -, -, -, hr⟩
  exact absurd hr (Nat.not_lt.2 h)

/-- Only in an underrun pause does an event complete the delivery (R135). -/
theorem completeIfEnded_sending (h : s.lines[n.val].tx.sending ≠ none) : completeIfEnded n s = s := by
  have hp : inPause s.lines[n.val].tx = false := by simp [inPause, h]
  unfold completeIfEnded
  dsimp only
  split
  · rw [if_neg (by simp [hp])]
  · rfl

/-! ## Reads of a transmitter (R126, R137) -/

/-- The requests that a transmitter offers change its offers, the count of its placed reads and the Store Port. -/
theorem pumpTx_eq (n : LineNo) (s : State) : ∃ (out : List Req) (live : Nat) (p : StorePort),
    pumpTx n s = { updTx n (fun t => { t with out := out, live := live }) s with port := p } := by
  unfold pumpTx
  generalize pumpFuel = k
  induction k generalizing s with
  | zero => exact ⟨s.lines[n].tx.out, s.lines[n].tx.live, s.port, (updTx_self (f := fun t => { t with out := s.lines[n].tx.out, live := s.lines[n].tx.live }) rfl).symm⟩
  | succ k ih =>
    unfold pump
    split
    · exact ⟨s.lines[n].tx.out, s.lines[n].tx.live, s.port, (updTx_self (f := fun t => { t with out := s.lines[n].tx.out, live := s.lines[n].tx.live }) rfl).symm⟩
    · next r _ =>
      split
      · obtain ⟨out, live, p, e⟩ := ih (updTx n (fun t => { t with out := t.out.tail, live := t.live + 1 }) (place r s))
        refine ⟨out, live, p, e.trans ?_⟩
        rw [updTx_updTx, place_port]
        rfl
      · rw [waitFor_port]
        refine ⟨s.lines[n].tx.out, s.lines[n].tx.live, waitingPort (.transmitter n) s.port, ?_⟩
        have : updTx n (fun t => { t with out := s.lines[n].tx.out, live := s.lines[n].tx.live }) s = s := updTx_self rfl
        rw [this]

/-- With room the reads offered are placed one after another. -/
theorem pumpTx_room {rs : List Req} (h : s.lines[n.val].tx.out = rs) (hr : PortRoom rs.length s.port)
    (hk : rs.length ≤ 64) : pumpTx n s =
      { updTx n (fun t => { t with out := [], live := t.live + rs.length }) s with port := placedAll rs s.port } := by
  unfold pumpTx
  obtain ⟨k, hk'⟩ : ∃ k, pumpFuel = rs.length + k := ⟨66 - rs.length, by unfold pumpFuel Config.queuePlaces; omega⟩
  rw [hk']
  clear hk hk'
  induction rs generalizing s with
  | nil =>
    have hself : updTx n (fun t => { t with out := [], live := t.live + ([] : List Req).length }) s = s :=
      updTx_self (congrArg (fun o : List Req => { s.lines[n.val].tx with out := o }) h.symm)
    rw [pump_none (by simp [h]), hself]
    rfl
  | cons r rs ih =>
    have hr' : PortRoom (rs.length + 1) s.port := by simpa using hr
    have hcount : (r :: rs).length + k = (rs.length + k) + 1 := by simp only [List.length_cons]; omega
    rw [hcount, pump_placed (r := r) (by simp [h]) (admits_of_room hr'), place_port,
      ih (s := updTx n (fun t => { t with out := t.out.tail, live := t.live + 1 }) { s with port := placedPort r s.port })
        (by rw [updTx_line]; simp [h]) (hr'.placed r)]
    rw [updTx_updTx]
    simp only [updTx_eq, List.length_cons, Nat.add_assoc, Nat.add_comm 1, placedAll_cons]

theorem offerReads_room {rs : List Req} (h : s.lines[n.val].tx.out = []) (hr : PortRoom rs.length s.port)
    (hk : rs.length ≤ 64) : offerReads n rs s =
      { updTx n (fun t => { t with live := t.live + rs.length }) s with port := placedAll rs s.port } := by
  unfold offerReads
  rw [pumpTx_room (s := updTx n (fun t => { t with out := t.out ++ rs }) s) (rs := rs)
    (by rw [updTx_line]; simp [h]) hr hk, updTx_updTx]
  have hself : ∀ t : Transmitter, t.out = [] → { t with out := [], live := t.live + rs.length } =
      { t with live := t.live + rs.length } := fun t ht => by rw [← ht]
  simp only [updTx_eq, Fin.getElem_fin, hself _ h]

/-! ## The drop of the delivery in hand and the entry to OFF (R126, R137) -/

/-- The transmitter with nothing in hand, its reads withdrawn or to be discarded. -/
def droppedTx (t : Transmitter) : Transmitter :=
  { t with
    hand := none, textBegun := false, holding := [], opening := [], lenKnown := false, callPos := none,
    answerCount := none, answerWindow := [], out := [], stale := t.stale + t.live, live := 0 }

theorem dropHand_eq (n : LineNo) (s : State) :
    dropHand n s = { updTx n droppedTx s with port := leftPort (.transmitter n) s.port } := by
  unfold dropHand dropReads
  rw [updTx_updTx]
  rfl

theorem not_mem_leftPort (i : Issuer) (p : StorePort) : i ∉ (leftPort i p).waiting := by
  simp [leftPort]

/-- With no message in progress the entry to OFF touches the line and the waiting list alone (R80, R126). -/
theorem goOff_hunting (h : hasMessage s.lines[n.val].rx = false) : goOff n s =
    { updLine n offLine s with port := leftPort (.transmitter n) (leftPort (.transmitter n) s.port) } := by
  unfold goOff receiverOff
  dsimp only
  rw [if_neg (by rw [dropHand_eq]; simpa [updTx] using h), dropHand_eq]
  unfold transmitterOff
  rw [updTx, updLine_updLine]
  simp only [leaveWaiting_port, updLine_eq, updTx_eq]
  simp [offLine, clearReceiver, droppedTx]

end Sys2Proof.Machine

/-! SUPPORT. Completions of a transmitter's read, the drop of a delivery taken back, and a delivery that a party line takes. -/

namespace Sys2Proof.Machine

variable {s e : State} {n : LineNo}

/-! ## Completions -/

/-- A completion whose part of the issuer is written out. -/
theorem completion_ends {p : Purpose → Bool} {f : Req → Word → State → State} {r : Req} (h : Serving r s)
    (hp : p r.purpose = true) (hf : f r (s.store.readWord r.addr) (finishRequest r s) = e) (he : Quiet e) :
    completion p f s = .next (eventEnd e) := by
  rw [completion_serving h hp, hf, settle_quiet he]

/-- A read changes nothing but that its cycle ends (R11). -/
theorem finishRequest_read {r : Req} (s : State) (h : ∀ m, r.issuer ≠ .receiver m) (hw : r.write = none) :
    finishRequest r s = ended s := by
  rw [finishRequest_plain s h, hw]
  rfl

theorem quiet_ended (h : Quiet s) : Quiet (ended s) := h

/-! ## A transmitter's reads (R126, R131, R132) -/

section
variable {a : Addr} {pur : Purpose} {p : Purpose → Bool} {f : LineNo → Word → State → State}

/-- The line's transmitter with one placed read fewer to come. -/
def readTx (t : Transmitter) : Transmitter := { t with live := t.live - 1 }

theorem transmitterCompletion_discarded (h : Serving (readReq a (.transmitter n) pur) s) (hp : p pur = true)
    (hstale : 0 < s.lines[n.val].tx.stale) (hq : Quiet s) : transmitterCompletion p f s =
      .next (eventEnd (updTx n (fun t => { t with stale := t.stale - 1 }) (ended s))) := by
  refine completion_ends h hp ?_ hq
  rw [finishRequest_read s (by simp [readReq]) rfl]
  exact if_pos hstale

/-- A read that is not discarded goes to its part of the transmitter. -/
theorem transmitterCompletion_taken (h : Serving (readReq a (.transmitter n) pur) s) (hp : p pur = true)
    (hstale : s.lines[n.val].tx.stale = 0) : transmitterCompletion p f s =
      .next (settle (f n (s.store.readWord a) (updTx n readTx (ended s)))) := by
  refine (completion_serving h hp).trans ?_
  rw [finishRequest_read s (by simp [readReq]) rfl]
  exact congrArg (fun x => Host.Outcome.next (settle x)) (if_neg (by
    show ¬ 0 < s.lines[n.val].tx.stale
    rw [hstale]
    exact Nat.lt_irrefl 0))

end

/-- Two changes that make the same of the transmitter as it stands are one. -/
theorem updTx_congr {f g : Transmitter → Transmitter} (h : f s.lines[n.val].tx = g s.lines[n.val].tx) :
    updTx n f s = updTx n g s :=
  updLine_congr (by rw [h])

/-- With a sending in progress a read that calls for no further read only changes the transmitter. -/
theorem readDone_rests {g : Transmitter → Transmitter} (hs : (g s.lines[n.val].tx).sending ≠ none)
    (hhead : ∀ b ∈ (g s.lines[n.val].tx).holding.head?, isSent b = true) (hf : nextFetch n (updTx n g s) = none) :
    completeIfEnded n (advanceText n (updTx n g s)) = updTx n g s := by
  rw [advanceText_none (by rw [updTx_line]; exact hhead) hf, completeIfEnded_sending (by rw [updTx_line]; exact hs)]

/-- With a sending in progress and room a read that calls for a further one places it. -/
theorem readDone_fetches {g : Transmitter → Transmitter} {r : Req} (hs : (g s.lines[n.val].tx).sending ≠ none)
    (hhead : ∀ b ∈ (g s.lines[n.val].tx).holding.head?, isSent b = true) (hf : nextFetch n (updTx n g s) = some r)
    (hout : (g s.lines[n.val].tx).out = []) (hr : PortRoom 1 s.port) :
    completeIfEnded n (advanceText n (updTx n g s)) =
      { updTx n (fun t => { g t with live := (g t).live + 1 }) s with port := placedPort r s.port } := by
  rw [advanceText_fetch (by rw [updTx_line]; exact hhead) hf,
    offerReads_room (s := updTx n g s) (rs := [r]) (by rw [updTx_line]; exact hout) hr (by simp), updTx_updTx,
    completeIfEnded_sending]
  · rfl
  · show (updTx n (fun t => { g t with live := (g t).live + 1 }) s).lines[n.val].tx.sending ≠ none
    rw [updTx_line]
    exact hs

/-- The text read that R132 calls for while the read position lies in the current block. -/
theorem nextFetch_text (hs : s.lines[n.val].tx.state = .sending) (hh : s.lines[n.val].tx.holding = [])
    (ho : s.lines[n.val].tx.out = []) (hl : s.lines[n.val].tx.live = 0) (hk : s.lines[n.val].tx.lenKnown = true)
    (hr : s.lines[n.val].tx.readPos < s.lines[n.val].tx.effLen)
    (hc : chainIndex s.lines[n.val].tx.readPos ≤ s.lines[n.val].tx.curIndex) :
    nextFetch n s = some (readReq (blockWord s s.lines[n.val].tx.curBlock (textWord s.lines[n.val].tx.readPos))
      (.transmitter n) .txText) := by
  unfold nextFetch
  simp only [Fin.getElem_fin, hs, hh, ho, hl, hk, hr, and_self, if_true, if_neg (Nat.not_lt.2 hc)]

end Sys2Proof.Machine

/-! PROOFS. The statements about the samples of a sending that begins, and about the reads of a transmitter. -/

namespace Sys2Proof.Transmitters
open Sys2Proof.Machine

/-- A byte that is sent is a code or LOST (R133). -/
theorem isSent_iff {b : Byte} : isSent b = true ↔ b.toNat < 32 ∨ b = 64 := by
  simp [isSent, Config.lost]

/-- Settles O48: each thing that may begin, in the order of R122. -/
theorem frameStart : Obligations.FrameStart := by
  intro s n g hq hon hsend hg
  have hbegin : hasNext s.lines[n].tx = true → ∀ e, beginNext n s = e → Quiet e →
      exec (.frameStart n) s = .next (eventEnd e) := fun hnext e he hqe => by
    have hdue : (enabled s.lines[n] && s.lines[n].tx.sending.isNone && hasNext s.lines[n].tx) = true := by
      rw [enabled_iff.2 hon, hsend, hnext]
      rfl
    show execFrameStart n s = _
    exact lineEvent_ends hq hdue he hqe
  have hform : ∀ k t, g t k = sendingTx k t := fun k t => hg t k
  simp only [hform, Fin.getElem_fin] at hbegin ⊢
  refine ⟨fun h => ?_, fun h => ?_, fun c rest ho hs hop => ?_, fun b b' rest ho hs hop hlen hold hb hb' => ?_⟩
  · exact hbegin (by simp [hasNext, h]) _ (beginNext_preamble h) hq
  · exact hbegin (by simp [hasNext, h]) _ (beginNext_breakIn h) hq
  · refine hbegin ?_ _ (beginNext_opening ho hs hop) hq
    simp only [hasNext, hop, List.isEmpty_cons, Bool.not_false, Bool.true_or, Bool.and_true, Bool.or_eq_true,
      beq_iff_eq]
    exact .inr hs
  · have hnext : hasNext s.lines[n].tx = true := by
      simp [hasNext, hs, textReady, hlen, hold, isSent_iff.2 hb]
    have hstill := beginNext_text ho hs hop hold hlen (isSent_iff.2 hb)
    rw [advanceText_none (s := updTx n _ s)] at hstill
    · have hcode : sentCode s b = if b = 64 then s.office.held.substitute else b.setWidth 5 := rfl
      rw [hcode] at hstill
      exact hbegin hnext _ hstill hq
    · rw [updTx_line]
      simpa [sendingTx] using isSent_iff.2 hb'
    · refine nextFetch_holding ?_
      rw [updTx_line]
      simp [sendingTx]

/-- Settles O51: a discarded read is counted off, another goes to its part of the transmitter. -/
theorem transmitReads : Obligations.TransmitReads := by
  intro s n a p v c hq hpc hserve hv
  refine ⟨fun hstale => ?_, fun hstale hsend => ⟨fun hp hhead hrest => ?_, fun hp hhold hread hsent => ?_,
    fun hp hhold hlink => ?_, fun hp hhold hlink hs hout hlive hlen hread hchain hroom => ?_⟩⟩
  · rcases hpc with ⟨hp, hc⟩ | ⟨hp, hc⟩ | ⟨hp, hc⟩ <;> subst hp hc
    · exact transmitterCompletion_discarded (p := (· == .txHead)) (f := headReadDone) hserve rfl hstale hq
    · exact transmitterCompletion_discarded (p := (· == .txText)) (f := textReadDone) hserve rfl hstale hq
    · exact transmitterCompletion_discarded (p := (· == .txLink)) (f := textLinkDone) hserve rfl hstale hq
  · have hc : c = .transmitHeadReadCompletion := by simpa [hp] using hpc
    subst hp hc hv
    refine (transmitterCompletion_taken (p := (· == .txHead)) (f := headReadDone) hserve rfl hstale).trans ?_
    rw [headReadDone, updTx_updTx, readDone_rests (s := ended s) hsend (fun b hb => isSent_iff.2 (hhead b hb)),
      settle_quiet (s := updTx n _ (ended s)) hq]
    · rfl
    · rcases hrest with h | h | h
      · exact nextFetch_holding (by rw [updTx_line]; exact h)
      · exact nextFetch_reading (.inl (by rw [updTx_line]; exact h))
      · refine nextFetch_reading (.inr ?_)
        rw [updTx_line]
        show s.lines[n.val].tx.live - 1 ≠ 0
        simp only [Fin.getElem_fin] at h
        omega
  · have hc : c = .textReadCompletion := by simpa [hp] using hpc
    subst hp hc hv
    simp only [Fin.getElem_fin] at hhold hread
    refine (transmitterCompletion_taken (p := (· == .txText)) (f := textReadDone) hserve rfl hstale).trans ?_
    have hjoin : s.lines[n.val].tx.holding ++ joiningBytes (readTx s.lines[n.val].tx) (s.store.readWord a) =
        [(s.store.readWord a).extractLsb' 0 8, (s.store.readWord a).extractLsb' 8 8] := by
      unfold joiningBytes
      rw [hhold, if_pos (by exact Nat.lt_of_succ_lt hread), if_pos (by exact hread)]
      rfl
    have hdone : textReadDone n (s.store.readWord a) (updTx n readTx (ended s)) = completeIfEnded n (advanceText n
        (updTx n (fun t => { readTx t with
          readPos := t.readPos + 2
          holding := [(s.store.readWord a).extractLsb' 0 8, (s.store.readWord a).extractLsb' 8 8] }) (ended s))) := by
      unfold textReadDone
      rw [updTx_updTx]
      refine congrArg (fun u => completeIfEnded n (advanceText n u)) (updTx_congr ?_)
      exact congrArg (fun h : List Byte =>
        { readTx s.lines[n.val].tx with readPos := s.lines[n.val].tx.readPos + 2, holding := h }) hjoin
    rw [hdone, readDone_rests (s := ended s) hsend, settle_quiet (s := updTx n _ (ended s)) hq]
    · rfl
    · simpa using isSent_iff.2 hsent
    · refine nextFetch_holding ?_
      rw [updTx_line]
      simp
  · have hc : c = .transmitLinkReadCompletion := by simpa [hp] using hpc
    subst hp hc hv
    simp only [Fin.getElem_fin] at hhold
    have hdone : textLinkDone n (s.store.readWord a) (updTx n readTx (ended s)) = completeIfEnded n (advanceText n
        (updTx n (fun t => { readTx t with effLen := t.readPos }) (ended s))) := by
      unfold textLinkDone
      simp only [if_neg (Nat.not_lt.2 (show (updTx n readTx (ended s)).office.held.poolBlocks ≤ _ from hlink)), updTx_updTx]
      rfl
    refine (transmitterCompletion_taken (p := (· == .txLink)) (f := textLinkDone) hserve rfl hstale).trans ?_
    rw [hdone, readDone_rests (s := ended s) hsend, settle_quiet (s := updTx n _ (ended s)) hq]
    · rfl
    · show ∀ b ∈ s.lines[n.val].tx.holding.head?, isSent b = true
      simp [hhold]
    · exact nextFetch_ended (by rw [updTx_line]; exact Nat.le_refl _)
  · have hc : c = .transmitLinkReadCompletion := by simpa [hp] using hpc
    subst hp hc hv
    simp only [Fin.getElem_fin] at *
    have hdone : textLinkDone n (s.store.readWord a) (updTx n readTx (ended s)) = completeIfEnded n (advanceText n
        (updTx n (fun t => { readTx t with curBlock := (s.store.readWord a).toNat, curIndex := t.curIndex + 1 }) (ended s))) := by
      unfold textLinkDone
      simp only [if_pos (show _ < (updTx n readTx (ended s)).office.held.poolBlocks from hlink), updTx_updTx]
      rfl
    have hfetch : nextFetch n (updTx n (fun t => { readTx t with
        curBlock := (s.store.readWord a).toNat, curIndex := t.curIndex + 1 }) (ended s)) =
        some (readReq (blockWord s (s.store.readWord a).toNat (textWord s.lines[n.val].tx.readPos)) (.transmitter n) .txText) := by
      rw [nextFetch_text] <;> rw [updTx_line]
      · rfl
      · exact hs
      · exact hhold
      · exact hout
      · show s.lines[n.val].tx.live - 1 = 0
        omega
      · exact hlen
      · exact hread
      · exact Nat.le_of_eq hchain
    have hbody : textLinkDone n (s.store.readWord a) (updTx n readTx (ended s)) =
        { { s with lines := s.lines.set n { s.lines[n.val] with
            tx := { s.lines[n.val].tx with curBlock := (s.store.readWord a).toNat, curIndex := s.lines[n.val].tx.curIndex + 1 } } } with
          port := placedPort (readReq (blockWord s (s.store.readWord a).toNat (textWord s.lines[n.val].tx.readPos))
            (.transmitter n) .txText) (ended s).port } := by
      rw [hdone, readDone_fetches (s := ended s) (by exact hsend)
        (by show ∀ b ∈ s.lines[n.val].tx.holding.head?, isSent b = true; simp [hhold]) hfetch (by exact hout) hroom]
      simp only [updTx_eq, readTx, Fin.getElem_fin, ended, hlive]
    refine ⟨_, (transmitterCompletion_taken (p := (· == .txLink)) (f := textLinkDone) hserve rfl hstale).trans (by rw [hbody]), settle_port hq, ?_⟩
    rw [requests_settle (by exact hq), portRequests_placed]
    rfl

end Sys2Proof.Transmitters

/-! SUPPORT. The Delivery Unit's operations case by case: a delivery taken, given back, or freed; and the head rewrites, with
room at the Store Port and without. -/

namespace Sys2Proof.Machine

variable {s e : State} {n : LineNo} {d : DeliveryNo}

/-! ## A delivery is selected (R108, R109) -/

theorem maySelect_iff : maySelect s n = true ↔ s.lines[n.val].tx.state ≠ .off ∧ s.lines[n.val].tx.stopping = false ∧
    s.office.holdLatch = false ∧ s.du.active[n.val] = none ∧
    ¬ (s.lines[n.val].active.type = .pointToPoint ∧ s.lines[n.val].faulted = true) ∧
    ¬ (s.lines[n.val].active.type = .party ∧ s.lines[n.val].tx.backingOff = true) := by
  unfold maySelect enabled
  cases ht : s.lines[n.val].active.type <;> simp [ht, and_assoc]

theorem selection_single (h : maySelect s n = true) (hq : s.du.queues[n.val] = [d]) : selection s n = some d := by
  simp [selection, h, hq, pickBest]

/-- The Delivery Unit as delivery `d` of line `n` becomes ACTIVE (R109). -/
def activeDelivery (n : LineNo) (d : DeliveryNo) (u : DeliveryUnit) : DeliveryUnit :=
  { u with
    entries := u.entries.set d.val { u.entries[d] with
      state := .active, callSet := u.entries[d].callSet.map (fun m => { m with answered := false }) }
    queues := u.queues.set n.val (u.queues[n].filter (fun x => x != d))
    active := u.active.set n.val (some d) }

theorem makeActive_eq (n : LineNo) (d : DeliveryNo) (s : State) : makeActive n d s = { s with du := activeDelivery n d s.du } := rfl

/-- What the transmitter is handed with delivery `d`. -/
def handedDelivery (d : DeliveryNo) (u : DeliveryUnit) : Hand :=
  { number := d, first := u.transit[u.entries[d].transit].first
    callSet := u.entries[d].callSet.map (fun m => { m with answered := false }), repeatFlag := u.entries[d].repeatFlag }

theorem handOf_makeActive (n : LineNo) (d : DeliveryNo) (s : State) : handOf d (makeActive n d s) = handedDelivery d s.du := by
  simp [handOf, makeActive_eq, activeDelivery, handedDelivery]

/-- The transmitter with delivery `d` taken into hand. -/
def takenTx (h : Hand) (t : Transmitter) : Transmitter := { t with hand := some h, textBegun := false, guardCount := none }

theorem takeDelivery_sends (ht : s.lines[n.val].active.type = .pointToPoint) : takeDelivery n d s =
    enterSending n (handedDelivery d s.du) (updTx n (takenTx (handedDelivery d s.du)) (makeActive n d s)) := by
  have hparty : isParty (updTx n (takenTx (handedDelivery d s.du)) (makeActive n d s)).lines[n.val] = false := by
    rw [updTx_line]
    simp [isParty, makeActive_eq, ht]
  unfold takeDelivery
  dsimp only
  rw [handOf_makeActive]
  split
  · next h1 _ => exact absurd (h1.symm.trans hparty) (by decide)
  · rfl

theorem takeDelivery_calls {m : Member} {ms : List Member} (ht : s.lines[n.val].active.type = .party)
    (hc : s.du.entries[d].callSet = m :: ms) : takeDelivery n d s =
    enterCalling n 1 { m with answered := false }
      (updTx n (takenTx (handedDelivery d s.du)) (makeActive n d s)) := by
  have hparty : isParty (updTx n (takenTx (handedDelivery d s.du)) (makeActive n d s)).lines[n.val] = true := by
    rw [updTx_line]
    simp [isParty, makeActive_eq, ht]
  have hset : (handedDelivery d s.du).callSet =
      { m with answered := false } :: ms.map (fun m => { m with answered := false }) := by
    simp only [handedDelivery, hc, List.map_cons]
  unfold takeDelivery
  dsimp only
  rw [handOf_makeActive]
  split
  · next h1 h2 =>
    obtain ⟨rfl, -⟩ := List.cons.inj (hset.symm.trans h2)
    rfl
  · next h1 => exact absurd hset (h1 _ _ hparty)

/-- A selection that chooses a delivery takes it. -/
theorem selectOr_some {noWork : State → State} (h : selection s n = some d) : selectOr n noWork s = takeDelivery n d s := by
  unfold selectOr
  rw [h]

theorem selectOr_none {noWork : State → State} (h : selection s n = none) : selectOr n noWork s = noWork s := by
  unfold selectOr
  rw [h]

/-! ## A delivery goes back to the head of its queue (R106, R110) -/

/-- The Delivery Unit as delivery `d` of line `n`, changed by `f`, goes back to the head of the queue. -/
def returnedDelivery (n : LineNo) (d : DeliveryNo) (f : Delivery → Delivery) (u : DeliveryUnit) : DeliveryUnit :=
  { u with
    entries := u.entries.set d.val { f u.entries[d] with state := .queued }
    queues := u.queues.set n.val (d :: u.queues[n])
    active := u.active.set n.val none }

theorem returnToHead_eq {f : Delivery → Delivery} (hl : s.du.entries[d].line = n) (ha : s.du.active[n] = some d) :
    returnToHead d f s = { s with du := returnedDelivery n d f s.du } := by
  subst hl
  unfold returnToHead clearActive
  exact if_pos ha

theorem reportWithoutCount_plain {k : TransitNo} {r : Record} (h : s.du.rewrites = []) :
    reportWithoutCount k r s = offerReport r s := by
  unfold reportWithoutCount
  rw [if_neg (by simp [h])]

theorem reportInterrupted_plain {reason : Nat} (hl : s.du.entries[d].line = n) (h : s.du.rewrites = []) :
    reportInterrupted d reason s = offerReport
      (plainReport .deliveryInterrupted n.val (BitVec.ofNat 16 d.val) (BitVec.ofNat 16 reason) s.office.clock) s := by
  subst hl
  exact reportWithoutCount_plain h

theorem line_returned {g : Delivery → Delivery} {u : DeliveryUnit} (hl : (g u.entries[d]).line = n) :
    (returnedDelivery n d g u).entries[d].line = n := by
  simpa [returnedDelivery] using hl

/-- With no head rewrite listed an interruption is reported at once (R110, R114). -/
theorem interruptEntry_plain {reason : Nat} {begun : Bool} (hc : s.du.entries[d].cancelPending = false)
    (hl : s.du.entries[d].line = n) (ha : s.du.active[n] = some d) (hr : s.du.rewrites = []) :
    interruptEntry d reason begun s = offerReport
      (plainReport .deliveryInterrupted n.val (BitVec.ofNat 16 d.val) (BitVec.ofNat 16 reason) s.office.clock)
      { s with du := interruptedDelivery s n d begun } := by
  unfold interruptEntry
  rw [if_neg (by rw [hc]; exact Bool.false_ne_true), returnToHead_eq hl ha]
  exact reportInterrupted_plain (s := { s with du := (returnedDelivery n d _ s.du) }) (line_returned hl) hr

/-- A delivery whose try has failed once more. -/
def triedAgain (begun : Bool) (e : Delivery) : Delivery :=
  { e with attempts := e.attempts + 1, repeatFlag := e.repeatFlag || begun }

/-- The same for a failed try that is made again (R110, R138). -/
theorem failedTryEntry_plain {begun : Bool} (hc : s.du.entries[d].cancelPending = false)
    (hl : s.du.entries[d].line = n) (ha : s.du.active[n] = some d) (hr : s.du.rewrites = [])
    (hk : s.du.entries[d].attempts < 2) :
    failedTryEntry d begun s = offerReport
      (plainReport .deliveryInterrupted n.val (BitVec.ofNat 16 d.val) 3 s.office.clock)
      { s with du := returnedDelivery n d (triedAgain begun) s.du } := by
  unfold failedTryEntry
  rw [if_neg (by rw [hc]; exact Bool.false_ne_true), if_pos hk, returnToHead_eq hl ha]
  exact reportInterrupted_plain (s := { s with du := (returnedDelivery n d _ s.du) }) (line_returned hl) hr

/-! ## A delivery is freed (R114) -/

theorem addRewrite_ne_nil (addr : Addr) (value : Nat) (reports : List Record) (walk : Option WalkRequest)
    (ws : List Rewrite) : addRewrite addr value reports walk ws ≠ [] := by
  cases ws with
  | nil => simp [addRewrite]
  | cons w rest =>
    unfold addRewrite
    split <;> simp

theorem changeCount_eq (k : TransitNo) (count : Nat) (reports : List Record) (s : State) :
    changeCount k count reports s = pumpDelivery { s with du := { s.du with
      transit := s.du.transit.set k.val { s.du.transit[k] with
        outstanding := count, state := if count = 0 then .releasing else s.du.transit[k].state }
      rewrites := addRewrite (blockWord s s.du.transit[k].first 6) count reports
        (if count = 0 then some (endingWalk k s.du.transit[k]) else none) s.du.rewrites } } := by
  have haddr : ∀ t : Transit, rewriteAddr (updTransit k (fun _ => t) s) k = blockWord s t.first 6 := fun t => by
    unfold rewriteAddr
    rw [show (updTransit k (fun _ => t) s).du.transit[k] = t from Vector.getElem_set_self _]
    rfl
  have hsame : changeCount k count reports s = pumpDelivery (updRewrites
      (addRewrite (rewriteAddr (updTransit k (fun _ => { s.du.transit[k] with
        outstanding := count, state := if count = 0 then .releasing else s.du.transit[k].state }) s) k) count reports
        (if count = 0 then some (endingWalk k s.du.transit[k]) else none))
      (updTransit k (fun _ => { s.du.transit[k] with
        outstanding := count, state := if count = 0 then .releasing else s.du.transit[k].state }) s)) := rfl
  rw [hsame, haddr]
  rfl

/-- An ACTIVE delivery is freed (R114). -/
theorem freeEntry_active {reports : List Record} {count : Nat} (hl : s.du.entries[d].line = n)
    (ha : s.du.active[n] = some d) (hk : s.du.transit[s.du.entries[d].transit].outstanding - 1 = count) :
    freeEntry d reports s = pumpDelivery { s with du := freedDelivery s n d count reports } := by
  subst hl hk
  unfold freeEntry clearActive
  dsimp only
  rw [if_pos (by exact ha), changeCount_eq]
  rfl

/-- A delivery that is not ACTIVE is freed (R114). -/
theorem freeEntry_away {reports : List Record} {count : Nat} (hl : s.du.entries[d].line = n)
    (ha : s.du.active[n] ≠ some d) (hk : s.du.transit[s.du.entries[d].transit].outstanding - 1 = count) :
    freeEntry d reports s = pumpDelivery { s with du := { freedDelivery s n d count reports with active := s.du.active } } := by
  subst hl hk
  unfold freeEntry clearActive
  dsimp only
  rw [if_neg (by exact ha), changeCount_eq]
  rfl

/-- While an issuer waits the Delivery Unit waits with its rewrites (R9, R104). -/
theorem pumpDelivery_waits (h : s.port.waiting ≠ []) (hr : s.du.rewrites ≠ []) :
    pumpDelivery s = { s with port := waitingPort .delivery s.port } := by
  obtain ⟨w, ws, hw⟩ := List.exists_cons_of_ne_nil hr
  unfold pumpDelivery pumpFuel
  rw [pump_waits (r := rewriteReq w) (by simp [nextRewrite, hw]) (admits_of_waiting h), waitFor_port]

/-- With room the one rewrite listed is placed, and hands over its reports and its walk request (R104, R177). -/
theorem pumpDelivery_places {w : Rewrite} (h : PortRoom 1 s.port) (hr : s.du.rewrites = [w]) :
    pumpDelivery s = { offerAttached w.reports w.walk s with
      port := placedPort (rewriteReq w) s.port
      du := { s.du with rewrites := [] }
      walker := { s.walker with queue := s.walker.queue ++ w.walk.toList } } := by
  have hplaced : rewritePlaced (place (rewriteReq w) s) = { offerAttached w.reports w.walk s with
      port := placedPort (rewriteReq w) s.port
      du := { s.du with rewrites := [] }
      walker := { s.walker with queue := s.walker.queue ++ w.walk.toList } } := by
    rw [place_port]
    unfold rewritePlaced
    simp only [hr]
    cases w.walk with
    | none => simp [offerAttached, updReport, updRewrites]
    | some r => rfl
  unfold pumpDelivery pumpFuel
  rw [pump_placed (r := rewriteReq w) (by simp [nextRewrite, hr]) (admits_of_room h), hplaced, pump_none]
  rfl

/-- While an issuer waits, a freed ACTIVE delivery leaves its rewrite in the list. -/
theorem freeEntry_waits {reports : List Record} {count : Nat} (hl : s.du.entries[d].line = n)
    (ha : s.du.active[n] = some d) (hk : s.du.transit[s.du.entries[d].transit].outstanding - 1 = count)
    (hw : s.port.waiting ≠ []) :
    freeEntry d reports s =
      { s with du := freedDelivery s n d count reports, port := waitingPort .delivery s.port } := by
  rw [freeEntry_active hl ha hk, pumpDelivery_waits (s := { s with du := freedDelivery s n d count reports }) hw
    (addRewrite_ne_nil _ _ _ _ _)]

theorem deliveryRecord_eq {kind : ReportKind} {detail : Word} (hl : s.du.entries[d].line = n) :
    deliveryRecord s kind d detail = plainReport kind n.val (BitVec.ofNat 16 d.val) detail s.office.clock := by
  subst hl
  rfl

end Sys2Proof.Machine

/-! SUPPORT. What a transmitter does as a sending or a count ends, with the lemmas of the Delivery Unit. -/

namespace Sys2Proof.Machine

variable {s e : State} {n : LineNo} {d : DeliveryNo}

/-! ## What `SamePart` says of each part -/

section
variable {t : State}

theorem SamePart.eq (h : SamePart e t) : { t with port := e.port, report := e.report } = e := h

theorem SamePart.lines (h : SamePart e t) : t.lines = e.lines := (congrArg State.lines h.eq :)

theorem SamePart.du (h : SamePart e t) : t.du = e.du := (congrArg State.du h.eq :)

theorem SamePart.store (h : SamePart e t) : t.store = e.store := (congrArg State.store h.eq :)

theorem SamePart.pool (h : SamePart e t) : t.pool = e.pool := (congrArg State.pool h.eq :)

theorem SamePart.office (h : SamePart e t) : t.office = e.office := (congrArg State.office h.eq :)

theorem SamePart.walker (h : SamePart e t) : t.walker = e.walker := (congrArg State.walker h.eq :)

theorem SamePart.router (h : SamePart e t) : t.router = e.router := (congrArg State.router h.eq :)

end

theorem quiet_updTx (f : Transmitter → Transmitter) (h : Quiet s) : Quiet (updTx n f s) := ⟨h.1, h.2.1, h.2.2⟩

theorem quiet_makeActive (h : Quiet s) : Quiet (makeActive n d s) := ⟨h.1, h.2.1, h.2.2⟩

/-- A party line that backs off stays in IDLE whatever its queue holds (R144). -/
theorem enterIdle_backsOff (hp : s.lines[n.val].settingsPending = false) (ht : s.lines[n.val].active.type = .party)
    (hb : s.lines[n.val].tx.backingOff = true) : enterIdle n s = updTx n idleTx s := by
  have ht' : (updTx n idleTx s).lines[n.val].active.type = .party := by rw [updTx_line]; exact ht
  have hb' : (updTx n idleTx s).lines[n.val].tx.backingOff = true := by rw [updTx_line]; exact hb
  rw [enterIdle_settled (by simp [pauses, isParty, ht]) hp]
  simp only [idleOccasion, Fin.getElem_fin, ht', tellQueue, hb', not_true_eq_false, and_false, if_false]

/-- The transmitter after a sending has ended. -/
def silentTx (t : Transmitter) : Transmitter := { t with sending := none, send := true }

theorem endSending_eq (n : LineNo) (s : State) : endSending n s = updTx n silentTx s := rfl

theorem abandonSending_eq (n : LineNo) (s : State) : abandonSending n s = updTx n silentTx s := rfl

/-! ## The DISABLE takes effect (R126) -/

/-- With no delivery in hand, no message and no settings pending the line goes OFF and nothing else comes about. -/
theorem disableTakesEffect_plain (hh : s.lines[n.val].tx.hand = none) (hm : hasMessage s.lines[n.val].rx = false)
    (hp : s.lines[n.val].settingsPending = false) : disableTakesEffect n s =
    { updLine n offLine s with port := leftPort (.transmitter n) (leftPort (.transmitter n) s.port) } := by
  have hback : giveBackHand n 1 s = s := by simp [giveBackHand, hh]
  unfold disableTakesEffect
  rw [hback, goOff_hunting hm, checkIdlePoint_settled]
  show (updLine n offLine s).lines[n.val].settingsPending = false
  rw [updLine_line]
  exact hp

theorem hasMessage_hunting {r : Receiver} (h : r.state = .hunting) : hasMessage r = false := by
  simp [hasMessage, h]

/-! ## The end of a break-in (R137, R163) -/

theorem endBreakIn_plain (hs : s.lines[n.val].tx.stopping = false) (hb : s.lines[n.val].tx.breakInPending = false) :
    endBreakIn n s = enterIdle n (updTx n silentTx s) := by
  unfold endBreakIn
  rw [endSending_eq]
  simp [hs, hb, silentTx]

theorem endBreakIn_stops (hs : s.lines[n.val].tx.stopping = true) :
    endBreakIn n s = disableTakesEffect n (updTx n silentTx s) := by
  unfold endBreakIn
  rw [endSending_eq]
  simp [hs, silentTx]

/-- The transmitter free after a preemptive break-in. -/
def freedTx (t : Transmitter) : Transmitter := { silentTx t with breakInPending := false }

theorem endBreakIn_selects (hs : s.lines[n.val].tx.stopping = false) (hb : s.lines[n.val].tx.breakInPending = true)
    (hp : pauses s.lines[n.val] = false) :
    endBreakIn n s = beginCall n (selectOr n (enterIdle n) (updTx n freedTx s)) := by
  have hp' : ¬ pauses (updTx n freedTx s).lines[n] = true := by
    rw [Fin.getElem_fin, updTx_line]
    simpa [pauses, isParty] using hp
  unfold endBreakIn
  rw [endSending_eq]
  dsimp only
  rw [if_neg (by simp [hs, silentTx]), if_pos (by simpa [silentTx] using hb), updTx_updTx]
  exact if_neg hp'

/-- The transmitter in SENDING with the text still to be read (R130, R131). -/
def begunTx (h : Hand) (o : List Code) (t : Transmitter) : Transmitter :=
  { t with
    state := .sending, textBegun := true, holding := [], readPos := 0, effLen := 0, lenKnown := false,
    curBlock := h.first, curIndex := 0, opening := o, callPos := none, answerCount := none, answerWindow := [] }

/-- The codes sent before the text (R131). -/
def openingCodes (s : State) (h : Hand) : List Code :=
  s.office.held.ltrs :: (if h.repeatFlag then s.office.held.repeatNotice else [])

/-- The first two reads of a text (R131). -/
def firstReads (s : State) (n : LineNo) (h : Hand) : List Req :=
  [readReq (blockWord s h.first 1) (.transmitter n) .txHead, readReq (blockWord s h.first 16) (.transmitter n) .txText]

theorem enterSending_eq (n : LineNo) (h : Hand) (s : State) :
    enterSending n h s = offerReads n (firstReads s n h) (updTx n (begunTx h (openingCodes s h)) s) := rfl

/-- Whatever the Store Port admits, the entry to SENDING changes the transmitter and the Store Port alone. -/
theorem enterSending_frame (n : LineNo) (h : Hand) (s : State) : ∃ (tx : Transmitter → Transmitter) (p : StorePort),
    enterSending n h s = { updTx n tx s with port := p } ∧
      ∀ t, tx t = { begunTx h (openingCodes s h) t with out := (tx t).out, live := (tx t).live } := by
  obtain ⟨out, live, p, hpump⟩ := pumpTx_eq n (updTx n (fun t => { begunTx h (openingCodes s h) t with
    out := (begunTx h (openingCodes s h) t).out ++ firstReads s n h }) s)
  refine ⟨fun t => { begunTx h (openingCodes s h) t with out := out, live := live }, p, ?_, fun t => rfl⟩
  rw [enterSending_eq, offerReads, updTx_updTx]
  refine hpump.trans ?_
  rw [updTx_updTx]

/-- With room both reads are placed. -/
theorem enterSending_room {h : Hand} (hout : s.lines[n.val].tx.out = []) (hr : PortRoom 2 s.port) : enterSending n h s =
    { updTx n (fun t => { begunTx h (openingCodes s h) t with live := t.live + 2 }) s with
      port := placedAll (firstReads s n h) s.port } := by
  rw [enterSending_eq, offerReads_room (s := updTx n (begunTx h (openingCodes s h)) s) (rs := firstReads s n h)
    (by rw [updTx_line]; exact hout) hr (by simp [firstReads]), updTx_updTx]
  rfl

/-! ## A collision (R149) -/

/-- The transmitter backing off from 0. -/
def backedTx (n : LineNo) (t : Transmitter) : Transmitter :=
  { t with backingOff := true, backoffCount := some 0, backoffVoid := t.backoffVoid || backoffExpired n t }

theorem startBackoff_eq (n : LineNo) (s : State) : startBackoff n s = updTx n (backedTx n) s := rfl

/-- The transmitter with nothing owed and no break-in pending. -/
def clearedTx (t : Transmitter) : Transmitter := { t with owed := none, breakInPending := false }

/-- The line backs off, its delivery given back. -/
theorem collide_eq {u : State} (hu : giveBackHand n 4 (updTx n silentTx s) = u)
    (hstop : u.lines[n.val].tx.stopping = false) (hp : u.lines[n.val].settingsPending = false)
    (ht : u.lines[n.val].active.type = .party) :
    collide n s = { updTx n (fun t => idleTx (backedTx n (clearedTx (droppedTx t)))) u with
      port := leftPort (.transmitter n) u.port } := by
  have hline : (updTx n (fun t => clearedTx (droppedTx t)) u).lines[n.val] =
      { u.lines[n.val] with tx := clearedTx (droppedTx u.lines[n.val].tx) } := updTx_line _ _
  have hdrop : updTx n clearedTx (dropHand n u) = { updTx n (fun t => clearedTx (droppedTx t)) u with
      port := leftPort (.transmitter n) u.port } := by
    rw [dropHand_eq]
    exact congrArg (fun x : State => { x with port := leftPort (.transmitter n) u.port }) (updTx_updTx clearedTx droppedTx u)
  unfold collide
  rw [abandonSending_eq, hu]
  show (if (updTx n clearedTx (dropHand n u)).lines[n].tx.stopping then _ else
    enterIdle n (startBackoff n (updTx n clearedTx (dropHand n u)))) = _
  rw [hdrop, if_neg (by
    show ¬ (updTx n (fun t => clearedTx (droppedTx t)) u).lines[n.val].tx.stopping = true
    rw [hline]
    exact Bool.eq_false_iff.1 hstop)]
  rw [startBackoff_eq, enterIdle_backsOff]
  · rw [updTx_updTx]
    exact congrArg (fun x : State => { x with port := leftPort (.transmitter n) u.port })
      (updTx_updTx (fun t => idleTx (backedTx n t)) (fun t => clearedTx (droppedTx t)) u)
  · rw [updTx_line]
    show (updTx n (fun t => clearedTx (droppedTx t)) u).lines[n.val].settingsPending = false
    rw [hline]
    exact hp
  · rw [updTx_line]
    show (updTx n (fun t => clearedTx (droppedTx t)) u).lines[n.val].active.type = .party
    rw [hline]
    exact ht
  · rw [updTx_line]
    rfl

end Sys2Proof.Machine

/-! PROOFS. The statements about the ends of preamble and break-in, guard and backoff, and a collision. -/

namespace Sys2Proof.Transmitters
open Sys2Proof.Machine

variable {s : State} {n : LineNo}

/-- A line event that ends in an entry to IDLE, by what the line then enters. -/
theorem entersIdle {f : State → State} {due : LineUnit → Bool} (hq : Quiet s)
    (hd : due s.lines[n] = true) (hf : f s = enterIdle n (updTx n silentTx s))
    (hp : s.lines[n.val].settingsPending = false) :
    (s.lines[n].active.type = .pointToPoint → s.lines[n].recovery = true →
      lineEvent n due f s = .next (eventEnd { s with lines := s.lines.set n { s.lines[n] with
        tx := { s.lines[n].tx with sending := none, send := true, state := .pause } } })) ∧
    (s.du.queues[n] = [] → (s.lines[n].active.type = .party ∨ s.lines[n].recovery = false) →
      lineEvent n due f s = .next (eventEnd { s with lines := s.lines.set n { s.lines[n] with
        tx := { s.lines[n].tx with sending := none, send := true, state := .idle } } })) ∧
    (s.du.queues[n] ≠ [] → s.lines[n].active.type = .party → s.lines[n].tx.backingOff = false →
      lineEvent n due f s = .next (eventEnd { s with lines := s.lines.set n { s.lines[n] with
        tx := { s.lines[n].tx with sending := none, send := true, state := .guarding, guardCount := some 0 } } })) := by
  have hp' : (updTx n silentTx s).lines[n.val].settingsPending = false := by rw [updTx_line]; exact hp
  refine ⟨fun ht hr => ?_, fun hqueue ht => ?_, fun hqueue ht hb => ?_⟩
  · refine lineEvent_ends hq hd (hf.trans ?_) hq
    rw [enterIdle_pauses (s := updTx n silentTx s) (by rw [updTx_line, pauses_iff]; exact ⟨ht, hr⟩), updTx_updTx]
    rfl
  · refine lineEvent_ends hq hd (hf.trans ?_) hq
    rw [enterIdle_empty (s := updTx n silentTx s) (by rw [updTx_line, pauses_eq_false_iff]; exact ht) hp' hqueue,
      updTx_updTx]
    rfl
  · refine lineEvent_ends hq hd (hf.trans ?_) hq
    rw [enterIdle_guards (s := updTx n silentTx s) hp' (by rw [updTx_line]; exact ht) hqueue
      (by rw [updTx_line]; exact hb), updTx_updTx]
    rfl

/-- After a preemptive break-in the one queued delivery is taken: the transmitter, changed by some `tx`, is in SENDING. -/
theorem endBreakIn_takes {d : DeliveryNo} (hstop : s.lines[n.val].tx.stopping = false)
    (hbreak : s.lines[n.val].tx.breakInPending = true) (hrec : s.lines[n.val].recovery = false)
    (ht : s.lines[n.val].active.type = .pointToPoint) (hsel : selection (updTx n freedTx s) n = some d) :
    ∃ (tx : Transmitter → Transmitter) (p : StorePort),
      endBreakIn n s = { updTx n tx (makeActive n d (updTx n freedTx s)) with port := p } ∧
      ∀ t, (tx t).state = .sending ∧ (tx t).breakInPending = t.breakInPending ∧ (tx t).textBegun = true ∧
        ∃ h, (tx t).hand = some h ∧ h.number = d := by
  obtain ⟨tx, p, hframe, htx⟩ := enterSending_frame n (handedDelivery d s.du)
    (updTx n (takenTx (handedDelivery d s.du)) (makeActive n d (updTx n freedTx s)))
  have hbody : endBreakIn n s = beginCall n (enterSending n (handedDelivery d s.du)
      (updTx n (takenTx (handedDelivery d s.du)) (makeActive n d (updTx n freedTx s)))) := by
    rw [endBreakIn_selects hstop hbreak (pauses_eq_false_iff.2 (.inr hrec)), selectOr_some hsel,
      takeDelivery_sends (s := updTx n freedTx s) (by rw [updTx_line]; exact ht)]
    rfl
  rw [updTx_updTx] at hframe
  have hstate : ∀ t, (tx t).state = .sending := fun t => by rw [htx]; rfl
  refine ⟨fun t => tx (takenTx (handedDelivery d s.du) t), p, ?_, fun t => ⟨hstate _, ?_, ?_, handedDelivery d s.du, ?_, rfl⟩⟩
  · rw [hbody, hframe, beginCall, if_neg]
    rw [Fin.getElem_fin, show ∀ u : State, ({ u with port := p } : State).lines = u.lines from fun _ => rfl, updTx_line,
      hstate]
    exact TxState.noConfusion
  all_goals
    dsimp only
    rw [htx]
    rfl

/-- After a preemptive break-in the one queued delivery is selected (R163). -/
theorem breakInEnd_selects {d : DeliveryNo} {i : Nat} (hq : Quiet s) (hsend : s.lines[n.val].tx.sending = some ⟨.breakIn, i⟩)
    (hstop : s.lines[n.val].tx.stopping = false) (hbreak : s.lines[n.val].tx.breakInPending = true)
    (ht : s.lines[n.val].active.type = .pointToPoint) (hrec : s.lines[n.val].recovery = false)
    (hstate : s.lines[n.val].tx.state = .breakIn) (hf : s.lines[n.val].faulted = false)
    (hlatch : s.office.holdLatch = false) (hact : s.du.active[n.val] = none) (hqueue : s.du.queues[n.val] = [d]) :
    ∃ t, exec (.breakInEnd n) s = .next t ∧ t.lines[n].tx.state = .sending ∧ t.lines[n].tx.breakInPending = false ∧
      t.lines[n].tx.textBegun = true ∧ (∃ h, t.lines[n].tx.hand = some h ∧ h.number = d) ∧
      t.du.entries[d].state = .active ∧ t.du.active[n] = some d ∧ t.du.queues[n] = [] ∧ t.store = s.store ∧
      t.pool = s.pool ∧ t.office = s.office := by
  have hsel : selection (updTx n freedTx s) n = some d := by
    refine selection_single (maySelect_iff.2 ?_) hqueue
    rw [updTx_line]
    exact ⟨by rw [show (freedTx s.lines[n.val].tx).state = .breakIn from hstate]; decide, hstop, hlatch, hact,
      by simp [hf], by simp [ht]⟩
  obtain ⟨tx, p, hbody, htx⟩ := endBreakIn_takes hstop hbreak hrec ht hsel
  have hdue : sendingIs .breakIn s.lines[n].tx = true := by
    simp only [sendingIs, Fin.getElem_fin, hsend, beq_self_eq_true]
  obtain ⟨t, hexec, hpart, -⟩ := lineEvent_part (e := updTx n tx (makeActive n d (updTx n freedTx s)))
    (f := endBreakIn n) (due := fun l => sendingIs .breakIn l.tx) hq hdue hbody
    (quiet_updTx _ (quiet_makeActive (quiet_updTx _ hq)))
  have hlines : t.lines[n.val].tx = tx (freedTx s.lines[n.val].tx) := by
    rw [SamePart.lines hpart, updTx_line]
    simp [makeActive_eq, updTx_eq]
  have hdu : t.du = activeDelivery n d s.du := hpart.du
  obtain ⟨h1, h2, h3, h4⟩ := htx (freedTx s.lines[n.val].tx)
  refine ⟨t, hexec, ?_⟩
  rw [Fin.getElem_fin, hlines, hdu]
  refine ⟨h1, h2, h3, h4, ?_, ?_, ?_, ?_, ?_, ?_⟩
  · simp [activeDelivery]
  · simp [activeDelivery]
  · simp [activeDelivery, hqueue]
  · rw [hpart.store, updTx_store, makeActive_eq, updTx_store]
  · rw [hpart.pool, updTx_pool, makeActive_eq, updTx_pool]
  · rw [hpart.office, updTx_office, makeActive_eq, updTx_office]

/-- Settles O49: the entry to IDLE, the selection after a preemptive break-in, and the DISABLE. -/
theorem preambleAndBreakInEnd : Obligations.PreambleAndBreakInEnd := by
  intro s n i c hq hp
  refine ⟨fun hc => ?_, fun d hc hsend hstop hbreak ht hrec hstate hf hlatch hact hqueue => ?_,
    fun hc hsend hstop hhand hrx => ?_⟩
  · rcases hc with ⟨rfl, hsend⟩ | ⟨rfl, hsend, hstop, hbreak⟩
    · exact entersIdle (f := endPreamble n) (due := fun l => sendingIs .preamble l.tx) hq
        (by simp only [sendingIs, hsend, beq_self_eq_true]) rfl hp
    · exact entersIdle (f := endBreakIn n) (due := fun l => sendingIs .breakIn l.tx) hq
        (by simp only [sendingIs, hsend, beq_self_eq_true]) (endBreakIn_plain hstop hbreak) hp
  · subst hc
    exact breakInEnd_selects hq hsend hstop hbreak ht hrec hstate hf hlatch hact hqueue
  · subst hc
    have hbody : endBreakIn n s = { { s with lines := s.lines.set n (offLine s.lines[n]) } with
        port := leftPort (.transmitter n) (leftPort (.transmitter n) s.port) } := by
      rw [endBreakIn_stops hstop, disableTakesEffect_plain (s := updTx n silentTx s) (by rw [updTx_line]; exact hhand)
        (by rw [updTx_line]; exact hasMessage_hunting hrx) (by rw [updTx_line]; exact hp), updTx, updLine_updLine]
      rfl
    have hdue : sendingIs .breakIn s.lines[n].tx = true := by simp only [sendingIs, hsend, beq_self_eq_true]
    obtain ⟨t, hexec, hpart, -, hwait⟩ := lineEvent_part (f := endBreakIn n) (due := fun l => sendingIs .breakIn l.tx)
      hq hdue hbody hq
    exact ⟨t, hexec, by rw [hwait]; exact not_mem_leftPort _ _, hpart⟩

/-- Settles O52: what the guard and the backoff lead to. -/
theorem guardAndBackoff : Obligations.GuardAndBackoff := by
  intro s n hq ht hp
  refine ⟨fun hs hqueue => ?_, fun d m ms hs hqueue hstop hback hlatch hact hset => ?_, fun hback hvoid => ?_,
    fun hback hvoid hs hqueue => ?_, fun hback hvoid hs => ?_⟩
  · refine lineEvent_ends (due := fun l => l.tx.state == .guarding) (f := expireGuard n) hq (beq_iff_eq.2 hs) ?_ hq
    have hline : (updTx n (fun t => { t with guardCount := none }) s).lines[n.val] =
      { s.lines[n.val] with tx := { s.lines[n.val].tx with guardCount := none } } := updTx_line _ _
    unfold expireGuard
    rw [selectOr_none (selection_empty (s := updTx n _ s) hqueue), enterIdle_empty (s := updTx n _ s)
      (by rw [hline, pauses_eq_false_iff]; exact .inl ht) (by rw [hline]; exact hp) hqueue, updTx_updTx]
    rfl
  · refine lineEvent_ends (due := fun l => l.tx.state == .guarding) (f := expireGuard n) hq (beq_iff_eq.2 hs) ?_ hq
    have hline : (updTx n (fun t => { t with guardCount := none }) s).lines[n.val] =
      { s.lines[n.val] with tx := { s.lines[n.val].tx with guardCount := none } } := updTx_line _ _
    have hmay : maySelect (updTx n (fun t => { t with guardCount := none }) s) n = true := by
      rw [maySelect_iff, hline]
      refine ⟨?_, hstop, hlatch, hact, ?_, ?_⟩
      · rw [show s.lines[n.val].tx.state = .guarding from hs]
        decide
      · rintro ⟨h, -⟩
        exact LineType.noConfusion (h.symm.trans ht)
      · rintro ⟨-, h⟩
        exact Bool.noConfusion (h.symm.trans hback)
    unfold expireGuard
    rw [selectOr_some (selection_single hmay hqueue), takeDelivery_calls (s := updTx n _ s) (by rw [hline]; exact ht) hset,
      enterCalling, updTx_updTx]
    have hdu : (updTx n (fun t => { t with guardCount := none }) s).du = s.du := rfl
    rw [hdu, makeActive_eq, hdu]
    have hqueue' : s.du.queues[n].filter (fun x => x != d) = [] := by
      rw [show s.du.queues[n] = [d] from hqueue]
      simp
    simp only [Fin.getElem_fin] at hset hqueue'
    simp only [activeDelivery, handedDelivery, Fin.getElem_fin, hset, hqueue', List.map_cons]
    unfold updTx updLine
    simp only [takenTx, Fin.getElem_fin, Vector.getElem_set_self, Vector.set_set]
  · refine lineEvent_ends (due := fun l => l.tx.backingOff) (f := expireBackoff n) hq hback ?_ hq
    unfold expireBackoff
    rw [if_pos (by exact hvoid)]
    rfl
  · refine lineEvent_ends (due := fun l => l.tx.backingOff) (f := expireBackoff n) hq hback ?_ hq
    unfold expireBackoff
    rw [if_neg (by rw [hvoid]; exact Bool.false_ne_true)]
    dsimp only
    have hq' : (updTx n (fun t => { t with backingOff := false, backoffCount := none }) s).du.queues[n] ≠ [] := hqueue
    rw [Fin.getElem_fin, updTx_line, if_pos (by exact hs), tellQueue, if_pos ⟨hq', by
      rw [Fin.getElem_fin, updTx_line]
      exact Bool.false_ne_true⟩, updTx_updTx]
    rfl
  · refine lineEvent_ends (due := fun l => l.tx.backingOff) (f := expireBackoff n) hq hback ?_ hq
    unfold expireBackoff
    rw [if_neg (by rw [hvoid]; exact Bool.false_ne_true)]
    dsimp only
    rw [Fin.getElem_fin, updTx_line]
    split
    · next hi =>
      rw [tellQueue, if_neg]
      · rfl
      · rintro ⟨hne, -⟩
        exact hs.elim (fun h => h hi) (fun h => hne h)
    · rfl

/-- Settles O54: the line backs off, its delivery given back where it has one. -/
theorem collision : Obligations.Collision := by
  intro s n l void hq ht hsend hp hstop hvoid hl
  have hline : (updTx n silentTx s).lines[n.val] = { s.lines[n.val] with tx := silentTx s.lines[n.val].tx } := updTx_line _ _
  have hback : void = (s.lines[n.val].tx.backoffVoid || backoffExpired n s.lines[n.val].tx) := by
    rw [Bool.eq_iff_iff, hvoid]
    simp [backoffExpired, Option.any_eq_true]
  refine ⟨fun hs hhand => ?_, fun h hs hhand hc hle ha hr => ?_⟩
  · have hstate : s.lines[n.val].tx.state = .preamble ∨ s.lines[n.val].tx.state = .breakIn := hs
    have hbody : collide n s = { { s with lines := s.lines.set n l } with port := leftPort (.transmitter n) s.port } := by
      rw [collide_eq (u := updTx n silentTx s) (by simp [giveBackHand, silentTx, show s.lines[n.val].tx.hand = none from hhand])
        (by rw [hline]; exact hstop) (by rw [hline]; exact hp) (by rw [hline]; exact ht), updTx_updTx, hl, hback]
      rfl
    have hdue : collisionDue s.lines[n] = true := by
      simp only [Fin.getElem_fin] at *
      rcases hstate with h | h <;> simp [collisionDue, echoes, isParty, ht, h, Option.isSome_iff_ne_none, hsend]
    obtain ⟨t, hexec, hpart, hreq, -⟩ := lineEvent_part (f := collide n) (due := collisionDue) hq hdue hbody hq
    exact ⟨t, hexec, hpart, by rw [hreq, portRequests_left]; rfl⟩
  · have hstate : s.lines[n.val].tx.state = .calling ∨ s.lines[n.val].tx.state = .sending := hs
    have hgive : giveBackHand n 4 (updTx n silentTx s) = offerReport
        (plainReport .deliveryInterrupted n.val (BitVec.ofNat 16 h.number.val) 4 s.office.clock)
        { updTx n silentTx s with du := interruptedDelivery s n h.number s.lines[n].tx.textBegun } := by
      unfold giveBackHand
      simp only [Fin.getElem_fin, hline, silentTx, show s.lines[n.val].tx.hand = some h from hhand]
      exact interruptEntry_plain (s := updTx n silentTx s) hc hle ha hr
    have hbody : collide n s = offerReport
        (plainReport .deliveryInterrupted n.val (BitVec.ofNat 16 h.number.val) 4 s.office.clock)
        { { s with du := interruptedDelivery s n h.number s.lines[n].tx.textBegun, lines := s.lines.set n l } with
          port := leftPort (.transmitter n) s.port } := by
      have hline' : (offerReport (plainReport .deliveryInterrupted n.val (BitVec.ofNat 16 h.number.val) 4 s.office.clock)
          { updTx n silentTx s with du := interruptedDelivery s n h.number s.lines[n].tx.textBegun }).lines[n.val] =
          { s.lines[n.val] with tx := silentTx s.lines[n.val].tx } := hline
      rw [collide_eq hgive (by rw [hline']; exact hstop) (by rw [hline']; exact hp) (by rw [hline']; exact ht)]
      have hset : updTx n (fun t => idleTx (backedTx n (clearedTx (droppedTx t)))) (updTx n silentTx s) =
          { s with lines := s.lines.set n l } := by
        rw [updTx_updTx, hl, hback]
        rfl
      exact congrArg (fun u : State => offerReport
        (plainReport .deliveryInterrupted n.val (BitVec.ofNat 16 h.number.val) 4 s.office.clock)
        { u with
          du := interruptedDelivery s n h.number s.lines[n].tx.textBegun
          port := leftPort (.transmitter n) s.port }) hset
    have hdue : collisionDue s.lines[n] = true := by
      simp only [Fin.getElem_fin] at *
      rcases hstate with h | h <;> simp [collisionDue, echoes, isParty, ht, h, Option.isSome_iff_ne_none, hsend]
    exact lineEvent_offers (f := collide n) (due := collisionDue) hq hdue hbody hq

end Sys2Proof.Transmitters

/-! SUPPORT. Writes of the control page whose owner's part is written out, and the reset input. -/

namespace Sys2Proof.Machine

variable {s e : State} {n : LineNo}

/-! ## Control-page words (R4, R5) -/

/-- Every write of a snooped word, as the processor makes it. -/
theorem exec_pageCommand {c : Instr} {off : Nat} {v : Word} {be : ByteEnables} (h : pageCommand c = some (off, v, be))
    (s : State) : exec c s = writeEvent (pageAddr s off) ⟨v, be⟩ s := by
  cases c <;> simp only [pageCommand, Option.some.injEq, Prod.mk.injEq, reduceCtorEq] at h
  all_goals
    obtain ⟨rfl, rfl, rfl⟩ := h
    rfl

/-- The snooped words lie in the control page, and no such command but RESUME writes 2 to offset 20. -/
theorem pageCommand_range {c : Instr} {off : Nat} {v : Word} {be : ByteEnables} (h : pageCommand c = some (off, v, be)) :
    off < 1024 ∧ (off = 20 → v = 1) := by
  cases c <;> simp only [pageCommand, Option.some.injEq, Prod.mk.injEq, reduceCtorEq] at h
  all_goals
    obtain ⟨rfl, rfl, rfl⟩ := h
    grind

/-- A snooped word whose owner makes `e` of the state. -/
theorem exec_pageCommand_ends {c : Instr} {off : Nat} {v : Word} (hc : pageCommand c = some (off, v, .both))
    (h : Accessible s) (hs : snoop off v (forward (pageWrite s off v .both) s) = forward (pageWrite s off v .both) e)
    (he : Quiet e) : exec c s = .next (eventEnd (forward (pageWrite s off v .both) e)) := by
  rw [exec_pageCommand hc, writeEvent_page (pageCommand_range hc).1 v .both h, if_pos rfl, hs,
    settle_quiet (quiet_forward _ he)]

/-- A snooped word whose owner makes `e` of the state, whatever it does at the Store Port. -/
theorem exec_pageCommand_part {c : Instr} {off : Nat} {v : Word} {p : StorePort}
    (hc : pageCommand c = some (off, v, .both)) (h : Accessible s)
    (hs : snoop off v (forward (pageWrite s off v .both) s) = { e with port := p })
    (hp : p.fwd = some (pageWrite s off v .both)) (he : Quiet e) :
    ∃ t, exec c s = .next t ∧ Forwards (pageWrite s off v .both) t ∧ SamePart e t ∧ requests t = portRequests p ∧
      t.port.waiting = p.waiting := by
  refine ⟨settle { e with port := p }, ?_, ?_, settle_port he, requests_settle he, waiting_settle he⟩
  · rw [exec_pageCommand hc, writeEvent_page (pageCommand_range hc).1 v .both h, if_pos rfl, hs]
  · rw [settle_quiet (s := { e with port := p }) he, forwards_eventEnd]
    exact .inl hp

/-- A snooped word whose owner offers one report. -/
theorem exec_pageCommand_offers {c : Instr} {off : Nat} {v : Word} {p : StorePort} {r : Record}
    (hc : pageCommand c = some (off, v, .both)) (h : Accessible s)
    (hs : snoop off v (forward (pageWrite s off v .both) s) = offerReport r { e with port := p })
    (hp : p.fwd = some (pageWrite s off v .both)) (he : Quiet e) :
    ∃ t, exec c s = .next t ∧ Forwards (pageWrite s off v .both) t ∧ Offers r e t := by
  refine ⟨settle (offerReport r { e with port := p }), ?_, ?_, offers_settle r he⟩
  · rw [exec_pageCommand hc, writeEvent_page (pageCommand_range hc).1 v .both h, if_pos rfl, hs]
  · rw [settle_offerReport (s := { e with port := p }) he, forwards_eventEnd, forwards_takeReport]
    exact .inl hp

/-- Below the shadow words and the settings words only the start word and RESUME are taken before RUNNING (R5). -/
theorem snoop_asleep {off : Nat} {v : Word} (hr : running s = false) (h16 : off ≠ 16) (h20 : off = 20 → v ≠ 2)
    (hoff : off < 160) : snoop off v s = s := by
  unfold snoop
  rw [if_neg h16, if_neg (fun h => h20 h.1 h.2), dif_neg (by omega), dif_neg (by omega), if_neg (by simp [hr])]

/-- While RUNNING a word of the running office goes to its owner. -/
theorem snoop_running {off : Nat} {v : Word} (hr : running s = true) (h16 : off ≠ 16) (h20 : off = 20 → v ≠ 2)
    (hoff : off < 160) : snoop off v s = snoopRunning off v s := by
  unfold snoop
  rw [if_neg h16, if_neg (fun h => h20 h.1 h.2), dif_neg (by omega), dif_neg (by omega), if_pos hr]

theorem snoopRunning_line (n : LineNo) (v : Word) (s : State) : snoopRunning (128 + n.val) v s = lineControl n v s := by
  have hn : (⟨128 + n.val - 128, by omega⟩ : LineNo) = n := Fin.ext (by simp)
  unfold snoopRunning
  rw [if_neg (by omega), if_neg (by omega), if_neg (by omega), if_neg (by omega), if_neg (by omega), if_neg (by omega),
    if_neg (by omega), dif_pos (by omega)]
  exact congrArg (fun m => lineControl m v s) hn

theorem snoop_lineControl (hr : running s = true) (n : LineNo) (v : Word) :
    snoop (128 + n.val) v s = lineControl n v s := by
  rw [snoop_running hr (by omega) (by omega) (by omega), snoopRunning_line]

theorem snoop_lineSettings (n : LineNo) (v : Word) (s : State) : snoop (160 + n.val) v s = lineSettings n v s := by
  have hn : (⟨160 + n.val - 160, by omega⟩ : LineNo) = n := Fin.ext (by simp)
  unfold snoop
  rw [if_neg (by omega), if_neg (by omega), dif_pos (by omega)]
  exact congrArg (fun m => lineSettings m v s) hn

/-- A control value that names no command is not taken (R5). -/
theorem snoop_noCommand {off : Nat} {v : Word}
    (h : (128 ≤ off ∧ off ≤ 151 ∧ v ≠ 1 ∧ v ≠ 2 ∧ v ≠ 3) ∨ (off = 20 ∧ v ≠ 1 ∧ v ≠ 2)) : snoop off v s = s := by
  have h2 : off = 20 → v ≠ 2 := fun h20 => h.elim (fun h => absurd h.1 (by omega)) (fun h => h.2.2)
  have hrange : off ≠ 16 ∧ off < 160 := h.elim (fun h => ⟨by omega, by omega⟩) (fun h => ⟨by omega, by omega⟩)
  cases hr : running s with
  | false => exact snoop_asleep hr hrange.1 h2 hrange.2
  | true =>
    rw [snoop_running hr hrange.1 h2 hrange.2]
    unfold snoopRunning
    rcases h with ⟨hlow, hhigh, h1, h2, h3⟩ | ⟨hoff, h1, -⟩
    · rw [if_neg (by omega), if_neg (by omega), if_neg (by omega), if_neg (by omega), if_neg (by omega), if_neg (by omega),
        if_neg (by omega), dif_pos (by omega)]
      unfold lineControl
      rw [if_neg h1, if_neg h2, if_neg h3]
    · rw [if_neg (by omega), if_neg (by omega), if_neg (by omega), if_neg (fun h => h1 h.2), if_neg (by omega),
        if_neg (by omega), if_neg (by omega), dif_neg (by omega)]

/-- A level of HOLD that is the present one changes nothing. -/
theorem holdLevel_self (s : State) : holdLevel s.pins.hold s = s := by
  unfold holdLevel
  cases h : s.pins.hold with
  | true => rfl
  | false =>
    rw [if_neg Bool.false_ne_true, ← h]

end Sys2Proof.Machine

/-! PROOFS. The statements about the memory path and the reset input. -/

namespace Sys2Proof.MemoryPath
open Sys2Proof.Machine

/-- Settles O8: an ordinary write is forwarded, and one during reset is held. -/
theorem processorWrite : Obligations.ProcessorWrite := by
  refine fun s addr v be => ⟨fun h hpage hpool => ?_, fun hr hp => ?_⟩
  · have harrive : arriveWrite addr ⟨v, be⟩ s = forward ⟨addr, some ⟨v, be⟩⟩ s := by
      unfold arriveWrite
      dsimp only
      rw [hpage]
      rcases hpool with hpool | hpool
      · rw [hpool]
      · split <;> simp_all
    show writeEvent addr ⟨v, be⟩ s = _
    rw [writeEvent_open h.2, processorWrite_open h.1.1, harrive, settle_quiet (quiet_forward _ h.1)]
  · show writeEvent addr ⟨v, be⟩ s = _
    rw [writeEvent_open hp, Machine.processorWrite, if_pos hr, settle_inReset (s := holdAccess _ s) hr]
    simp [updateAttn, updReport, holdAccess, attnCondition, hr]

/-- Settles O9: a word that is not taken is only forwarded. -/
theorem snoopNotTaken : Obligations.SnoopNotTaken := by
  refine fun s h => ⟨fun c off v be hc hnot => ?_, fun be hbe => ?_, fun off v hoff => ?_⟩
  · rw [exec_pageCommand hc, writeEvent_page (pageCommand_range hc).1 v be h]
    rcases hnot with hbe | ⟨hr, hoff⟩
    · rw [if_neg hbe, settle_quiet (quiet_forward _ h.1)]
    · have hasleep : snoop off v (forward (pageWrite s off v be) s) = forward (pageWrite s off v be) s :=
        snoop_asleep (by simpa [running, forward] using hr) (by omega)
          (fun h20 => by rw [(pageCommand_range hc).2 h20]; decide) (by omega)
      rw [hasleep, ite_self, settle_quiet (quiet_forward _ h.1)]
  · have hexec : exec (.resume be s.pins.hold) s = writeEvent (pageAddr s 20) ⟨2, be⟩ s := by
      show event (!pwait s) (fun s' => Machine.processorWrite (pageAddr s' 20) ⟨2, be⟩ (holdLevel s.pins.hold s')) s = _
      unfold writeEvent event
      dsimp only
      rw [holdLevel_self]
    rw [hexec, writeEvent_page (by decide) 2 be h, if_neg hbe, settle_quiet (quiet_forward _ h.1)]
  · show writeEvent (pageAddr s off) ⟨v, .both⟩ s = _
    rw [writeEvent_page (by omega) v .both h, if_pos rfl, snoop_noCommand hoff, settle_quiet (quiet_forward _ h.1)]

/-- Settles O6: what the assertion of reset clears and keeps. -/
theorem resetAsserted : Obligations.ResetAsserted := by
  intro s hr
  have hexec : exec .resetAsserted s = .next (updateAttn (assertReset s)) := by
    show event (!s.resetIn) assertReset s = _
    rw [hr]
    exact congrArg Host.Outcome.next (settle_inReset (s := assertReset s) rfl)
  have hkept : ∃ k m, endWrite s = { s with freeCount := k, store := m } ∧
      (m = s.store ∨ ∃ (cy : Cycle) (w : WriteData), s.port.cycle = some cy ∧ cy.access.write = some w ∧
        m = s.store.write cy.access.addr w) := by
    unfold endWrite
    split
    · exact ⟨_, _, rfl, .inl rfl⟩
    · next c hc =>
      split
      · exact ⟨_, _, rfl, .inl rfl⟩
      · next w hw =>
        dsimp only
        split
        · exact ⟨_, _, rfl, .inr ⟨c, w, hc, hw, rfl⟩⟩
        · exact ⟨_, _, rfl, .inl rfl⟩
  have hwait : (heldAccess s).isSome = pwait s := by
    unfold heldAccess pwait
    cases s.path.held <;> cases s.port.fwd <;> rcases s.port.cycle with _ | (_ | _) <;> rfl
  obtain ⟨k, m, hend, hm⟩ := hkept
  refine ⟨_, hexec, ?_⟩
  unfold assertReset
  rw [hend]
  refine ⟨rfl, rfl, rfl, rfl, ?_, ?_, rfl, rfl, rfl, rfl, rfl, rfl, rfl, rfl, rfl, hm⟩
  · simp [updateAttn, updReport, attnCondition]
  · rw [← hwait]
    simp [pwait, updateAttn, updReport, StorePort.reset]

end Sys2Proof.MemoryPath

/-! SUPPORT. What an access finds in DORMANT, right after the deassertion of reset. -/

namespace Sys2Proof.Machine

variable {s e : State} {n : LineNo}

theorem eventEnd_port (s : State) : (eventEnd s).port = startedPort s.port := startCycle_congr rfl

theorem officeStatus_eventEnd (s : State) : officeStatus (eventEnd s) = officeStatus s := by
  rw [eventEnd_eq]
  rfl

theorem officeStatus_answer (v : Word) (s : State) : officeStatus (answer v s) = officeStatus s := rfl

/-- In DORMANT with every line OFF a write of the control page but the start word changes no more than Office Control, the
lines and the station tables. -/
theorem snoop_dormant (hs : s.office.state = .dormant) (hoff : ∀ m : LineNo, s.lines[m.val].tx.state = .off)
    {off : Nat} (h16 : off ≠ 16) (v : Word) : ∃ (o : OfficeControl) (ls : Vector LineUnit 24) (r : Router),
      snoop off v s = { s with office := o, lines := ls, router := r } ∧ o.state = .dormant := by
  have hr : running s = false := by simp [running, hs]
  unfold snoop
  rw [if_neg h16]
  split_ifs
  · unfold resumeHold
    split_ifs with hh hl
    · exact ⟨_, s.lines, s.router, rfl, hs⟩
    · simp [hr] at hl
    · exact ⟨_, s.lines, s.router, rfl, hs⟩
  · refine ⟨s.office, ?_⟩
    unfold lineSettings checkIdlePoint
    split_ifs with hi
    · dsimp only
      rw [if_neg]
      · exact ⟨_, s.router, rfl, hs⟩
      · unfold transferSettings
        rw [Fin.getElem_fin, updLine_line, updLine_line]
        have hidle : s.lines[off - 160].tx.state ≠ .idle := by
          rw [show s.lines[off - 160].tx.state = .off from hoff ⟨off - 160, by omega⟩]
          exact TxState.noConfusion
        cases parseSettings v |>.type <;> simpa using hidle
    · exact ⟨_, s.router, rfl, hs⟩
  · exact ⟨s.office, s.lines, _, rfl, hs⟩
  · exact absurd ‹running s = true› (by simp [hr])
  · exact ⟨s.office, s.lines, s.router, rfl, hs⟩

/-- A store cycle in progress goes on while an issuer's requests are offered. -/
theorem pump_cycle {i : Issuer} {next : State → Option Req} {placed : State → State} {c : Cycle}
    (hp : ∀ u, (placed u).port = u.port) (k : Nat) (h : s.port.cycle = some c) :
    (pump i next placed k s).port.cycle = some c := by
  induction k generalizing s with
  | zero => exact h
  | succ k ih =>
    unfold pump
    split
    · exact h
    · next r _ =>
      split
      · refine ih ?_
        rw [hp]
        unfold place
        rw [startCycle_taken (by exact fun e => Option.some_ne_none _ (h.symm.trans e))]
        exact h
      · unfold waitFor
        split <;> exact h

/-- In DORMANT with an empty Store Port the start word's access is the first served. -/
theorem startWord_served {a : Access} (hs : s.office.state = .dormant) (hport : s.port = { StorePort.reset with fwd := some a }) :
    ∃ (p : StorePort) (o : OfficeControl), startWord s = { s with port := p, office := o } ∧
      p.cycle = some (.forwarded a) ∧ o.state = .setupRead := by
  obtain ⟨u, hu⟩ : ∃ u, u = updOffice (fun o => { o with state := .setupRead, refusal := 0, setupNext := 0, setupWords := [] }) s :=
    ⟨_, rfl⟩
  have hstart : startWord s = pumpOffice u := by
    unfold startWord
    rw [hs, hu]
  obtain ⟨p, m, hp⟩ := pumpOffice_eq pumpFuel u
  have hcycle : (pumpOffice u).port.cycle = some (.forwarded a) := by
    have hnext : nextSetupRead u = some (readReq (pageAddr u 0) .office .setupRead) := by rw [hu]; rfl
    have hadmit : admits u = true := by
      rw [hu]
      unfold admits
      rw [updOffice_port, hport]
      rfl
    have hplace : (place (readReq (pageAddr u 0) .office .setupRead) u).port.cycle = some (.forwarded a) := by
      rw [place_port, hu]
      show (placedPort _ s.port).cycle = _
      rw [hport]
      rfl
    unfold pumpOffice pumpFuel
    rw [pump_placed hnext hadmit]
    exact pump_cycle (placed := setupReadPlaced) (fun _ => rfl) _ hplace
  have hpump : pumpOffice u = { u with port := p, office := { u.office with setupNext := m } } := hp
  refine ⟨p, { u.office with setupNext := m }, ?_, ?_, ?_⟩
  · rw [hstart, hpump, hu]
    rfl
  · rw [hpump] at hcycle
    exact hcycle
  · rw [hu]
    rfl

/-- A read of a word that is not live in DORMANT is forwarded. -/
theorem arriveRead_dormant {addr : Addr} (hs : s.office.state = .dormant)
    (h : addr.toNat ≠ s.path.straps.toNat * 16384 + 32) : arriveRead addr s = forward ⟨addr, none⟩ s := by
  have hr : running s = false := by simp [running, hs]
  have hsub : (pageOffset s addr).bind (substituted s) = none := by
    cases hp : pageOffset s addr with
    | none => rfl
    | some off =>
      have hne : off ≠ 32 := by
        unfold pageOffset at hp
        dsimp only at hp
        split at hp
        · simp only [Option.some.injEq] at hp
          omega
        · exact absurd hp.symm (Option.some_ne_none _)
      simp [substituted, hr, hne]
  unfold arriveRead
  rw [hsub]

theorem arriveRead_status {addr : Addr} (h : addr.toNat = s.path.straps.toNat * 16384 + 32) :
    arriveRead addr s = answer (officeStatus s) s := by
  have hp : pageOffset s addr = some 32 := by
    unfold pageOffset
    dsimp only
    rw [if_pos (by omega)]
    congr 1
    omega
  unfold arriveRead
  rw [hp]
  rfl

/-- A write that arrives in DORMANT with an empty Store Port is the first served. -/
theorem arriveWrite_served {addr : Addr} {w : WriteData} (hs : s.office.state = .dormant) (hport : s.port = StorePort.reset)
    (hoff : ∀ m : LineNo, s.lines[m.val].tx.state = .off) :
    ∃ (p : StorePort) (o : OfficeControl) (ls : Vector LineUnit 24) (r : Router),
      arriveWrite addr w s = { s with port := p, office := o, lines := ls, router := r } ∧ o.state ≠ .running ∧
        (startedPort p).cycle = some (.forwarded ⟨addr, some w⟩) := by
  have hforward : ∀ a, (forward a s).port = { StorePort.reset with fwd := some a } := fun a => by
    show { s.port with fwd := some a } = _
    rw [hport]
  have hplain : (startedPort { StorePort.reset with fwd := some ⟨addr, some w⟩ }).cycle = some (.forwarded ⟨addr, some w⟩) := rfl
  have hnone : ∃ (p : StorePort) (o : OfficeControl) (ls : Vector LineUnit 24) (r : Router),
      forward ⟨addr, some w⟩ s = { s with port := p, office := o, lines := ls, router := r } ∧ o.state ≠ .running ∧
        (startedPort p).cycle = some (.forwarded ⟨addr, some w⟩) :=
    ⟨_, s.office, s.lines, s.router, rfl, by rw [hs]; exact OfficeState.noConfusion, by
      show (startedPort { s.port with fwd := _ }).cycle = _
      rw [hport]
      rfl⟩
  unfold arriveWrite
  dsimp only
  split
  · next off _ =>
    split_ifs
    · by_cases h16 : off = 16
      · obtain ⟨p, o, he, hc, ho⟩ := startWord_served (s := forward ⟨addr, some w⟩ s) hs (hforward _)
        refine ⟨p, o, s.lines, s.router, ?_, by rw [ho]; exact OfficeState.noConfusion, ?_⟩
        · unfold snoop
          rw [if_pos h16, he]
          rfl
        · unfold startedPort
          rw [startCycle_taken (by exact fun e => Option.some_ne_none _ (hc.symm.trans e))]
          exact hc
      · obtain ⟨o, ls, r, he, ho⟩ := snoop_dormant (s := forward ⟨addr, some w⟩ s) hs hoff h16 w.data
        refine ⟨{ s.port with fwd := some ⟨addr, some w⟩ }, o, ls, r, he, by rw [ho]; exact OfficeState.noConfusion, ?_⟩
        rw [hport]
        rfl
    · exact hnone
  · split_ifs with hpool
    · simp [poolExists, hs] at hpool
    · exact hnone
  · exact hnone

end Sys2Proof.Machine

namespace Sys2Proof.MemoryPath
open Sys2Proof.Machine

/-- Settles O7: the reset values are the state's own, and a held access finds the office in DORMANT. -/
theorem resetDeassertion : Obligations.ResetDeassertion := by
  have hexec : ∀ (s : State) (p : BitVec 4) (h : Bool), s.resetIn = true →
      exec (.resetDeasserted p h) s = .next (settle (deassertReset p h s)) := fun s p h hr => by
    show event s.resetIn (deassertReset p h) s = _
    rw [hr]
    rfl
  have hquiet : ∀ (s : State) p h, Quiet (resetValues p h s) := fun s p h => ⟨rfl, .inr rfl, rfl⟩
  refine ⟨fun s p h hr hheld => ?_, fun s p h a hr hheld => ?_⟩
  · refine ⟨_, hexec s p h hr, ?_⟩
    have hbody : settle (deassertReset p h s) = resetValues p h s := by
      unfold deassertReset
      simp only [hheld]
      rw [settle_quiet (hquiet s p h)]
      rfl
    rw [hbody]
    refine ⟨rfl, rfl, rfl, rfl, rfl, rfl, ⟨rfl, rfl, rfl, rfl, rfl, rfl, rfl, rfl, rfl, rfl, rfl⟩,
      ⟨rfl, rfl, rfl, rfl, rfl, rfl, rfl⟩, fun n => ?_, fun k => ?_, ⟨fun d => ?_, fun k => ?_, fun n => ?_, rfl⟩,
      ⟨rfl, rfl, rfl, rfl, rfl, rfl, rfl, rfl, rfl⟩⟩
    · have hline : (resetValues p h s).lines[n] = LineUnit.reset := by simp [resetValues, State.reset]
      rw [hline]
      exact ⟨⟨rfl, rfl, rfl⟩, ⟨rfl, rfl, rfl, rfl, rfl, rfl, rfl, rfl, rfl, rfl, rfl, rfl, rfl, rfl, rfl, rfl, rfl⟩,
        ⟨rfl, rfl, rfl, rfl, rfl, rfl, rfl, rfl, rfl⟩, ⟨rfl, rfl, rfl, rfl, rfl, rfl, rfl, rfl⟩⟩
    · constructor <;> simp [resetValues, State.reset, Router.reset, Station.reset]
    · simp [resetValues, State.reset, DeliveryUnit.reset, Delivery.reset]
    · simp [resetValues, State.reset, DeliveryUnit.reset, Transit.reset]
    · constructor <;> simp [resetValues, State.reset, DeliveryUnit.reset]
  · have hlines : ∀ m : LineNo, (resetValues p h s).lines[m.val].tx.state = .off := fun m => by
      simp [resetValues, State.reset, LineUnit.reset, Transmitter.reset]
    refine ⟨_, hexec s p h hr, ?_⟩
    cases hw : a.write with
    | some w =>
      obtain ⟨q, o, ls, r, he, ho, hc⟩ := arriveWrite_served (s := resetValues p h s) (addr := a.addr) (w := w) rfl rfl hlines
      have hbody : settle (deassertReset p h s) = eventEnd
          { resetValues p h s with port := q, office := o, lines := ls, router := r } := by
        unfold deassertReset
        simp only [hheld, hw]
        rw [he]
        exact settle_quiet ⟨rfl, .inr rfl, rfl⟩
      have ha : a = ⟨a.addr, some w⟩ := by rw [← hw]
      rw [hbody]
      refine ⟨by rw [eventEnd_eq]; rfl, by rw [eventEnd_eq]; rfl, by rw [eventEnd_eq]; simpa [running] using ho, ?_⟩
      rw [if_neg (by simp), eventEnd_port, ha]
      exact hc
    | none =>
      have ha : a = ⟨a.addr, none⟩ := by rw [← hw]
      have hread : deassertReset p h s = arriveRead a.addr (resetValues p h s) := by
        unfold deassertReset
        simp only [hheld, hw]
      rw [hread]
      by_cases h32 : a.addr.toNat = p.toNat * 16384 + 32
      · rw [arriveRead_status (s := resetValues p h s) h32,
          settle_quiet (s := answer (officeStatus (resetValues p h s)) (resetValues p h s)) (hquiet s p h)]
        refine ⟨rfl, rfl, rfl, ?_⟩
        rw [if_pos ⟨rfl, h32⟩, officeStatus_eventEnd, officeStatus_answer, eventEnd_eq]
        exact ⟨rfl, by rw [eventEnd_port]; rfl⟩
      · rw [arriveRead_dormant (s := resetValues p h s) rfl h32, settle_quiet (quiet_forward _ (hquiet s p h))]
        refine ⟨rfl, rfl, rfl, ?_⟩
        rw [if_neg (fun h => h32 h.2), ha]
        rfl

end Sys2Proof.MemoryPath

/-! SUPPORT. Single choices of the model in the words of the rules: the first failing check of a setup, the entry a selection
picks, the one rewrite of each head, line words, and a change that is made on every line. -/

namespace Sys2Proof.Machine

variable {s e : State} {n : LineNo}

/-! ## The first of several conditions -/

/-- A number that names the first condition that holds, or is 0 where none does. -/
theorem first_iff {P : Nat → Prop} {r : Nat} (hnone : r = 0 → ∀ i, ¬ P i)
    (hsome : r ≠ 0 → P r ∧ ∀ i, i < r → ¬ P i) :
    (r = 0 ↔ ∀ i, ¬ P i) ∧ ∀ k, r = k + 1 ↔ P (k + 1) ∧ ∀ i, i < k + 1 → ¬ P i := by
  refine ⟨⟨hnone, fun h => by_contra fun hr => h r (hsome hr).1⟩, fun k => ⟨?_, fun ⟨hk, hfirst⟩ => ?_⟩⟩
  · rintro rfl
    exact hsome (Nat.succ_ne_zero k)
  · have hr : r ≠ 0 := fun hr => hnone hr _ hk
    obtain ⟨hpr, hlt⟩ := hsome hr
    rcases Nat.lt_trichotomy r (k + 1) with h | h | h
    · exact absurd hpr (hfirst r h)
    · exact h
    · exact absurd hk (hlt _ h)

/-- Two ranges that are not empty meet where some address lies in both (R15). -/
theorem rangesMeet_iff {a na b nb : Nat} (ha : 0 < na) (hb : 0 < nb) :
    rangesMeet a na b nb = true ↔ ∃ x, a ≤ x ∧ x < a + na ∧ b ≤ x ∧ x < b + nb := by
  simp only [rangesMeet, Bool.and_eq_true, decide_eq_true_eq]
  exact ⟨fun h => ⟨max a b, by omega⟩, fun ⟨x, h⟩ => by omega⟩

/-! ## The entry that a selection picks (R109) -/

theorem pickBest_eq_none_iff {q : List DeliveryNo} : pickBest s q = none ↔ q = [] := by
  cases q with
  | nil => simp [pickBest]
  | cons d rest =>
    unfold pickBest
    split <;> simp
    split <;> simp

/-- The entry picked has the smallest effective class, and is the first of those that have it. -/
theorem pickBest_some {q : List DeliveryNo} {d : DeliveryNo} (h : pickBest s q = some d) :
    ∃ front back, q = front ++ d :: back ∧
      (∀ x ∈ front, effectiveClass s s.du.entries[d] < effectiveClass s s.du.entries[x]) ∧
      (∀ x ∈ back, effectiveClass s s.du.entries[d] ≤ effectiveClass s s.du.entries[x]) := by
  induction q generalizing d with
  | nil => simp [pickBest] at h
  | cons x rest ih =>
    unfold pickBest at h
    split at h
    · next hnone =>
      obtain rfl : x = d := by simpa using h
      exact ⟨[], rest, rfl, by simp, by simp [pickBest_eq_none_iff.1 hnone]⟩
    · next b hb =>
      obtain ⟨front, back, hrest, hfront, hback⟩ := ih hb
      split at h
      · next hlt =>
        obtain rfl : b = d := by simpa using h
        exact ⟨x :: front, back, by rw [hrest]; rfl, by simpa using ⟨hlt, hfront⟩, hback⟩
      · next hle =>
        obtain rfl : x = d := by simpa using h
        refine ⟨[], rest, rfl, by simp, fun y hy => ?_⟩
        rw [hrest] at hy
        rcases List.mem_append.1 hy with hy | hy
        · have := hfront y hy
          omega
        · rcases List.mem_cons.1 hy with rfl | hy
          · omega
          · have := hback y hy
            omega

/-! ## One rewrite for each head (R104) -/

section
variable {addr : Addr} {count : Nat} {reports : List Record} {walk : Option WalkRequest}

theorem addRewrite_joins {ws : List Rewrite} (h : ∀ w ∈ ws, w.addr ≠ addr) :
    addRewrite addr count reports walk ws = ws ++ [⟨addr, count, reports, walk⟩] := by
  induction ws with
  | nil => rfl
  | cons w rest ih =>
    rw [List.forall_mem_cons] at h
    unfold addRewrite
    rw [if_neg h.1, ih h.2]
    rfl

theorem addRewrite_replaces {front back : List Rewrite} {w : Rewrite} (hw : w.addr = addr)
    (h : ∀ x ∈ front, x.addr ≠ addr) : addRewrite addr count reports walk (front ++ w :: back) =
      front ++ ⟨addr, count, w.reports ++ reports, walk.or w.walk⟩ :: back := by
  induction front with
  | nil =>
    show addRewrite addr count reports walk (w :: back) = _
    unfold addRewrite
    rw [if_pos hw]
    rfl
  | cons x rest ih =>
    rw [List.forall_mem_cons] at h
    show addRewrite addr count reports walk (x :: (rest ++ w :: back)) = _
    unfold addRewrite
    rw [if_neg h.1, ih h.2]
    rfl

/-- The heads of the list stay as they are, but for a head that is new. -/
theorem addRewrite_addrs (ws : List Rewrite) : (addRewrite addr count reports walk ws).map Rewrite.addr =
    ws.map Rewrite.addr ++ if addr ∈ ws.map Rewrite.addr then [] else [addr] := by
  induction ws with
  | nil => simp [addRewrite]
  | cons w rest ih =>
    unfold addRewrite
    split
    · next hw => simp [hw]
    · next hw => simp [ih, Ne.symm hw]

end

/-! ## Line words -/

/-- The bits of a line settings word (Table 12-7). -/
theorem parseSettings_bits (v : Word) : parseSettings v =
    { divisor := v.extractLsb' 0 12, by8 := v.getLsbD 12
      stop := if v.extractLsb' 13 2 = 0#2 then .one else if v.extractLsb' 13 2 = 1#2 then .oneAndHalf else .two
      type := if v.getLsbD 15 then .party else .pointToPoint } := by
  unfold parseSettings field
  congr 1
  generalize v.extractLsb' 13 2 = b
  revert b
  decide

/-! ## A change that is made on every line -/

/-- Lines changed one after another, each once. -/
theorem foldl_updLine (g : LineUnit → LineUnit) (l : List LineNo) (hl : l.Nodup) (u : State) :
    ∃ ls : Vector LineUnit 24, l.foldl (fun s m => updLine m g s) u = { u with lines := ls } ∧
      ∀ m : LineNo, ls[m.val] = if m ∈ l then g u.lines[m.val] else u.lines[m.val] := by
  induction l generalizing u with
  | nil => exact ⟨u.lines, rfl, fun m => by simp⟩
  | cons k l ih =>
    obtain ⟨hk, hl⟩ := List.nodup_cons.1 hl
    obtain ⟨ls, hfold, hls⟩ := ih hl (updLine k g u)
    refine ⟨ls, hfold, fun m => ?_⟩
    rw [hls m]
    by_cases hm : m = k
    · subst hm
      simp [hk]
    · simp [hm, updLine_lines_ne (s := u) g hm]

theorem onAllLines_updLine (g : LineUnit → LineUnit) (u : State) :
    onAllLines (fun m => updLine m g) u = { u with lines := u.lines.map g } := by
  obtain ⟨ls, hfold, hls⟩ := foldl_updLine g (List.finRange 24) (List.nodup_finRange 24) u
  have hmap : ls = u.lines.map g := by
    refine Vector.ext fun i hi => ?_
    rw [Vector.getElem_map]
    exact (hls ⟨i, hi⟩).trans (if_pos (List.mem_finRange _))
  unfold onAllLines
  rw [hfold, hmap]

/-- A HELD transmitter owes a preamble (R169). -/
def releasedLine (l : LineUnit) : LineUnit :=
  if l.tx.state = .held then { l with tx := { l.tx with state := .preamble, owed := some .preamble, send := true } } else l

theorem releaseLine_eq (n : LineNo) : releaseLine n = updLine n releasedLine := by
  funext s
  unfold releaseLine
  split
  · next h => exact updLine_congr (if_pos h).symm
  · next h => exact (updLine_self (if_neg h)).symm

end Sys2Proof.Machine

namespace Sys2Proof.MemoryPath
open Sys2Proof.Machine

/-- Settles O16: the checks stand in the order of the table, and the ranges that are compared are not empty. -/
theorem setupChecks : Obligations.SetupChecks := by
  intro page h bad hbad
  have hrange : ∀ i, bad i → 1 ≤ i ∧ i ≤ 8 := fun i hi => by
    have := (hbad i).1 hi
    omega
  have h1 : bad 1 ↔ h.poolBlocks < 16 ∨ h.poolBlocks > 2048 := by simpa using hbad 1
  have h2 : bad 2 ↔ (h.poolBase + h.poolBlocks) * 32 > 262144 := by simpa using hbad 2
  have h3 : bad 3 ↔ h.ringCode > 6 ∨ h.ringBase * 64 + 64 * 2 ^ h.ringCode > 262144 := by simpa using hbad 3
  have h4 : ¬ bad 1 → (bad 4 ↔ (rangesMeet (h.poolBase * 32) (h.poolBlocks * 32) (h.ringBase * 64) (64 * 2 ^ h.ringCode) ||
      rangesMeet (h.poolBase * 32) (h.poolBlocks * 32) page 1024 ||
      rangesMeet (h.ringBase * 64) (64 * 2 ^ h.ringCode) page 1024) = true) := fun hb => by
    have hblocks : 0 < h.poolBlocks * 32 := by
      have := mt h1.2 hb
      omega
    have hring : 0 < 64 * 2 ^ h.ringCode := by positivity
    rw [Bool.or_eq_true, Bool.or_eq_true, rangesMeet_iff hblocks hring, rangesMeet_iff hblocks (by decide),
      rangesMeet_iff hring (by decide), ← exists_or, ← exists_or]
    simpa [or_assoc] using hbad 4
  have h5 : bad 5 ↔ h.som = h.eom := by simpa using hbad 5
  have h6 : bad 6 ↔ ¬ h.precedence.Nodup := by simpa using hbad 6
  have h7 : bad 7 ↔ h.answerTimeout = 0 ∨ h.guardTime = 0 := by simpa using hbad 7
  have h8 : bad 8 ↔ h.retry = 0 ∨ h.idleTimeout < 8 := by simpa using hbad 8
  have hfirst : ∀ r, setupRefusal page h = r →
      (r = 0 → ∀ i, ¬ bad i) ∧ (r ≠ 0 → bad r ∧ ∀ i, i < r → ¬ bad i) := fun r hr => by
    have hbelow : ∀ k, (∀ i, 1 ≤ i → i ≤ 8 → i < k → ¬ bad i) → ∀ i, i < k → ¬ bad i := fun k hk i hi hb =>
      hk i (hrange i hb).1 (hrange i hb).2 hi hb
    unfold setupRefusal at hr
    dsimp only at hr
    split_ifs at hr with c1 c2 c3 c4 c5 c6 c7 c8 <;> subst hr
    · exact ⟨by omega, fun _ => ⟨h1.2 c1, hbelow _ (by omega)⟩⟩
    all_goals have n1 := mt h1.1 c1
    · exact ⟨by omega, fun _ => ⟨h2.2 c2, hbelow _ fun i _ _ _ => by interval_cases i; exact n1⟩⟩
    all_goals have n2 := mt h2.1 c2
    · exact ⟨by omega, fun _ => ⟨h3.2 c3, hbelow _ fun i _ _ _ => by interval_cases i <;> assumption⟩⟩
    all_goals have n3 := mt h3.1 c3
    · exact ⟨by omega, fun _ => ⟨(h4 n1).2 c4, hbelow _ fun i _ _ _ => by interval_cases i <;> assumption⟩⟩
    all_goals have n4 := mt (h4 n1).1 c4
    · exact ⟨by omega, fun _ => ⟨h5.2 c5, hbelow _ fun i _ _ _ => by interval_cases i <;> assumption⟩⟩
    all_goals have n5 := mt h5.1 c5
    on_goal 4 => exact ⟨by omega, fun _ => ⟨h6.2 c6, hbelow _ fun i _ _ _ => by interval_cases i <;> assumption⟩⟩
    all_goals have n6 : ¬ bad 6 := fun hb => h6.1 hb c6
    · exact ⟨by omega, fun _ => ⟨h7.2 c7, hbelow _ fun i _ _ _ => by interval_cases i <;> assumption⟩⟩
    all_goals have n7 := mt h7.1 c7
    · exact ⟨by omega, fun _ => ⟨h8.2 c8, hbelow _ fun i _ _ _ => by interval_cases i <;> assumption⟩⟩
    · have n8 := mt h8.1 c8
      refine ⟨fun _ i hb => ?_, fun h => absurd rfl h⟩
      obtain ⟨hlow, hhigh⟩ := hrange i hb
      interval_cases i <;> contradiction
  exact first_iff (hfirst _ rfl).1 (hfirst _ rfl).2

/-- Settles O24: a post that is refused is reported, another joins the queue. -/
theorem postWord : Obligations.PostWord := by
  intro s v hr hp hrun
  have hsnoop : ∀ u : State, running u = true → snoop 18 v u = Machine.postWord v u := fun u hu => by
    rw [snoop_running hu (by decide) (fun h => absurd h (by decide)) (by decide)]
    rfl
  refine ⟨fun reason hreason hq => ?_, fun hnew hroom => ?_⟩
  · refine exec_pageCommand_offers (c := .postWord v .both) (e := s)
      (p := { s.port with fwd := some (pageWrite s 18 v .both) }) rfl ⟨hq, hp⟩ ?_ rfl hq
    rw [hsnoop (forward _ s) hrun]
    unfold Machine.postWord
    rcases hreason with ⟨hmem, rfl⟩ | ⟨hmem, hfull, rfl⟩
    · rw [if_pos (by simpa [forward] using hmem)]
      rfl
    · rw [if_neg (by simpa [forward] using hmem), if_pos (by exact hfull)]
      rfl
  · have hexec : exec (.postWord v .both) s = .next (settle (snoop 18 v (forward (pageWrite s 18 v .both) s))) := by
      show writeEvent (pageAddr s 18) ⟨v, .both⟩ s = _
      rw [writeEvent_open hp, processorWrite_open hr, arriveWrite_page s (by decide), if_pos rfl]
    rw [hexec, hsnoop (forward _ s) hrun]
    unfold Machine.postWord
    rw [if_neg (by simpa [forward] using hnew), if_neg (by exact Nat.not_le.2 hroom)]
    dsimp only
    split
    · next h =>
      rw [if_pos (by exact h)]
      rfl
    · next h =>
      rw [if_neg (by exact h)]
      simp [forward, updPort]

end Sys2Proof.MemoryPath

/-! PROOFS. The statements about selection and the rewrite list. -/

namespace Sys2Proof.Deliveries
open Sys2Proof.Machine

/-- Settles O39: the conditions of a selection, and the entry that is picked. -/
theorem selection : Obligations.Selection := by
  intro s n
  refine ⟨?_, fun d hd => ?_⟩
  · unfold Machine.selection
    split
    · next h =>
      obtain ⟨hon, hstop, hlatch, hact, hfault, hback⟩ := maySelect_iff.1 h
      rw [pickBest_eq_none_iff]
      simp only [Fin.getElem_fin] at *
      simp [hon, hstop, hlatch, hact, hfault, hback]
    · next h =>
      rw [maySelect_iff] at h
      simp only [Fin.getElem_fin]
      simp only [true_iff]
      by_contra hno
      push Not at hno
      obtain ⟨-, hon, hstop, hlatch, hact, hfault, hback⟩ := hno
      exact h ⟨hon, by simpa using hstop, by simpa using hlatch, hact, fun h => hfault h.1 h.2, fun h => hback h.1 h.2⟩
  · unfold Machine.selection at hd
    split at hd
    · exact pickBest_some hd
    · simp at hd

/-- Settles O41: by induction on the rewrite list. -/
theorem oneRewritePerHead : Obligations.OneRewritePerHead := by
  refine fun addr count reports walk ws => ⟨addRewrite_joins, ?_, fun h => ?_⟩
  · rintro front w back rfl hw hfront
    exact addRewrite_replaces hw hfront
  · rw [addRewrite_addrs]
    split
    · simpa using h
    · next hnew => exact List.nodup_append.2 ⟨h, by simp, by simpa using hnew⟩

end Sys2Proof.Deliveries

/-! SUPPORT. The words of one line, and RESUME. -/

namespace Sys2Proof.Machine

variable {s e : State} {n : LineNo}

/-- A line that ENABLE turns on, under the hold latch or not (R82, R124). -/
def enabledLine (latch : Bool) (l : LineUnit) : LineUnit :=
  { l with
    divider := 0, sampler := Sampler.reset, spaceRun := 0, markRun := 0, recent := (true, true)
    rx := { l.rx with state := .hunting, fifo := [], pendingGap := false, window := [], asm := Assembly.reset,
                      idleClose := false }
    tx := if latch then { l.tx with state := .held, send := true }
          else { l.tx with state := .preamble, owed := some .preamble, send := true } }

/-- The three line control words (R123). -/
theorem lineControl_enable (n : LineNo) (s : State) : lineControl n 1 s = enableLine n s := by
  simp [lineControl]

theorem lineControl_disable (n : LineNo) (s : State) : lineControl n 2 s = disableLine n s := by
  simp [lineControl]

theorem lineControl_reset (n : LineNo) (s : State) : lineControl n 3 s = resetLine n s := by
  simp [lineControl]

theorem enableLine_off (h : s.lines[n.val].tx.state = .off) : enableLine n s = updLine n (enabledLine s.office.holdLatch) s :=
  if_pos h

theorem enableLine_on (h : s.lines[n.val].tx.state ≠ .off) : enableLine n s = s := if_neg h

/-- The line after a transfer of its shadow settings (R129, R142). -/
def transferredLine (l : LineUnit) : LineUnit :=
  { l with
    active := l.shadow, settingsPending := false
    tx := if l.shadow.type = .pointToPoint then { l.tx with backingOff := false, backoffCount := none, backoffVoid := false }
          else l.tx }

theorem transferSettings_eq (n : LineNo) (s : State) : transferSettings n s = updLine n transferredLine s := by
  refine updLine_congr ?_
  unfold transferredLine
  cases s.lines[n.val].shadow.type <;> rfl

/-- A pending transfer at the idle point of an OFF line (R129). -/
theorem checkIdlePoint_off (hp : s.lines[n.val].settingsPending = true) (ht : s.lines[n.val].tx.state = .off)
    (hr : s.lines[n.val].rx.state = .off) : checkIdlePoint n s = updLine n transferredLine s := by
  have hoff : (updLine n transferredLine s).lines[n.val].tx.state ≠ .idle := by
    rw [updLine_line]
    unfold transferredLine
    dsimp only
    split <;> simp [ht]
  unfold checkIdlePoint
  rw [if_pos (by simp [hp, idlePoint, ht, hr])]
  simp only [transferSettings_eq]
  exact if_neg hoff

theorem checkIdlePoint_away (h : idlePoint s.lines[n.val] = false) : checkIdlePoint n s = s :=
  if_neg (by simp [h])

/-- The idle point asks for an idle or OFF transmitter and a receiver with no message (R129). -/
theorem idlePoint_eq_false {l : LineUnit} (h : (l.tx.state ≠ .off ∧ l.tx.state ≠ .idle) ∨ l.rx.state = .header ∨
    l.rx.state = .text ∨ l.rx.state = .closing ∨ (l.rx.state = .hunting ∧ l.sampler.state = .inCharacter)) :
    idlePoint l = false := by
  unfold idlePoint
  rcases h with ⟨h1, h2⟩ | h | h | h | ⟨h1, h2⟩
  · simp [h1, h2]
  · simp [h]
  · simp [h]
  · simp [h]
  · simp [h1, h2]

/-- RESUME with HOLD deasserted where no line is acted on (R165). -/
theorem resumeHold_clears (hp : s.pins.hold = false) (h : s.office.holdLatch = false ∨ running s = false) :
    resumeHold s = updOffice (fun o => { o with holdStill := false, holdLatch := false }) s := by
  unfold resumeHold
  rw [if_neg (by simp [hp]), if_neg (by rcases h with h | h <;> simp [h])]

/-- RESUME with HOLD deasserted as the latch is cleared while RUNNING (R165, R169). -/
theorem resumeHold_releases (hp : s.pins.hold = false) (hl : s.office.holdLatch = true) (hrun : running s = true) :
    resumeHold s = offerReport (plainReport .holdResumed 31 65535 0 s.office.clock)
      { s with office := { s.office with holdStill := false, holdLatch := false }, lines := s.lines.map releasedLine } := by
  unfold resumeHold
  rw [if_neg (by simp [hp]), if_pos (by simp [hl, hrun]), funext releaseLine_eq, onAllLines_updLine]
  rfl

/-- RESUME at its arrival, where HOLD takes a level that is no assertion (R165). -/
theorem exec_resume {hold : Bool} (h : Accessible s) (hh : hold = true → s.pins.hold = true) :
    exec (.resume .both hold) s = .next (settle (resumeHold (forward (pageWrite s 20 2 .both)
      { s with pins := { s.pins with hold := hold } }))) := by
  have hlevel : holdLevel hold s = { s with pins := { s.pins with hold := hold } } := by
    cases hold with
    | false => rfl
    | true =>
      have hs := hh rfl
      unfold holdLevel
      rw [if_pos rfl, if_pos hs, ← hs]
  obtain ⟨u, hu⟩ : ∃ u : State, u = { s with pins := { s.pins with hold := hold } } := ⟨_, rfl⟩
  have hr : u.resetIn = false := by
    rw [hu]
    exact h.1.1
  have haddr : pageAddr s 20 = pageAddr u 20 := by
    rw [hu]
    rfl
  have hpage : pageWrite s 20 2 .both = pageWrite u 20 2 .both := by
    rw [pageWrite, haddr, pageWrite]
  have hsnoop : ∀ x : State, snoop 20 2 x = resumeHold x := fun x => by simp [snoop]
  show execResume .both hold s = _
  unfold execResume
  rw [h.2, Bool.not_false, event_due, hlevel, ← hu, haddr, hpage, processorWrite_open hr,
    arriveWrite_page u (show 20 < 1024 by omega), if_pos rfl, hsnoop]

/-- RESUME clears the latch while RUNNING (R165, R169). -/
theorem exec_resume_releases (h : Accessible s) (hl : s.office.holdLatch = true) (hrun : running s = true) :
    ∃ t, exec (.resume .both false) s = .next t ∧ Forwards (pageWrite s 20 2 .both) t ∧
      Offers (plainReport .holdResumed 31 65535 0 s.office.clock)
        { s with pins := { s.pins with hold := false }
                 office := { s.office with holdStill := false, holdLatch := false }
                 lines := s.lines.map releasedLine } t := by
  have hbody : resumeHold (forward (pageWrite s 20 2 .both) { s with pins := { s.pins with hold := false } }) =
      offerReport (plainReport .holdResumed 31 65535 0 s.office.clock) (forward (pageWrite s 20 2 .both)
        { s with pins := { s.pins with hold := false }
                 office := { s.office with holdStill := false, holdLatch := false }
                 lines := s.lines.map releasedLine }) := resumeHold_releases (s := forward _ _) rfl hl hrun
  refine ⟨_, exec_resume h (fun h => absurd h Bool.false_ne_true), ?_⟩
  rw [hbody]
  exact settle_forward_offerReport _ _ (by exact h.1)

end Sys2Proof.Machine

/-! PROOFS. The statements about the words of one line and about RESUME. -/

namespace Sys2Proof.LineWords
open Sys2Proof.Machine

/-- Settles O43: ENABLE acts on a line that is OFF. -/
theorem enable : Obligations.Enable := by
  rintro s n l h hrun rfl
  have hexec : ∀ e, Quiet e → enableLine n (forward (pageWrite s (128 + n.val) 1 .both) s) =
      forward (pageWrite s (128 + n.val) 1 .both) e →
      exec (.enable n .both) s = .next (eventEnd (forward (pageWrite s (128 + n.val) 1 .both) e)) := fun e he hbody =>
    exec_pageCommand_ends (c := .enable n .both) rfl h
      (by rw [snoop_lineControl (s := forward _ s) hrun, lineControl_enable, hbody]) he
  refine ⟨fun hs hlatch => hexec _ h.1 ?_, fun hs hlatch => hexec _ h.1 ?_, fun hs => hexec s h.1 ?_⟩
  · rw [enableLine_off (s := forward _ s) hs, show (forward _ s).office.holdLatch = false from hlatch]
    rfl
  · rw [enableLine_off (s := forward _ s) hs, show (forward _ s).office.holdLatch = true from hlatch]
    rfl
  · exact enableLine_on (s := forward _ s) hs

/-- Settles O46: the transfer is made at the idle point alone. -/
theorem lineSettingsWord : Obligations.LineSettingsWord := by
  intro s n v g h hg
  rw [← parseSettings_bits] at hg
  subst hg
  have hexec : ∀ e, Quiet e → lineSettings n v (forward (pageWrite s (160 + n.val) v .both) s) =
      forward (pageWrite s (160 + n.val) v .both) e →
      exec (.lineSettingsWord n v .both) s = .next (eventEnd (forward (pageWrite s (160 + n.val) v .both) e)) :=
    fun e he hbody => exec_pageCommand_ends (c := .lineSettingsWord n v .both) rfl h
      ((snoop_lineSettings n v _).trans hbody) he
  refine ⟨fun htx hrx => hexec _ h.1 ?_, fun haway => hexec _ h.1 ?_⟩
  · unfold lineSettings
    rw [checkIdlePoint_off (by rw [updLine_line]) (by rw [updLine_line]; exact htx) (by rw [updLine_line]; exact hrx),
      updLine_updLine]
    rfl
  · unfold lineSettings
    rw [checkIdlePoint_away (by rw [updLine_line]; exact idlePoint_eq_false haway)]
    rfl

/-- Settles O55: the latch and the marks, and every HELD line at a release. -/
theorem holdLatchAndResume : Obligations.HoldLatchAndResume := by
  refine ⟨fun s h => ⟨fun hl => ?_, fun hl hrun => ?_⟩, fun s h => ⟨fun hhold => ?_, fun hclear => ?_, fun hl hrun hnone => ?_,
    fun hl hrun => ?_⟩⟩
  · have hbody : assertHold s = { s with pins := { s.pins with hold := true } } := by
      unfold assertHold
      rw [if_pos (by simp [hl])]
    exact (congrArg (fun u => Host.Outcome.next (settle u)) hbody).trans (by rw [settle_quiet (by exact h)])
  · have hbody : assertHold s =
        { s with pins := { s.pins with hold := true }, office := { s.office with holdLatch := true } } := by
      unfold assertHold latchHold
      rw [if_neg (by simp [hl, h.1]), if_neg (by rw [Bool.not_eq_true]; exact hrun)]
      rfl
    exact (congrArg (fun u => Host.Outcome.next (settle u)) hbody).trans (by rw [settle_quiet (by exact h)])
  · have hsame : { s with pins := { s.pins with hold := true } } = s := by rw [← hhold]
    have hbody : resumeHold (forward (pageWrite s 20 2 .both) s) =
        forward (pageWrite s 20 2 .both) { s with office := { s.office with holdStill := true } } := if_pos hhold
    rw [exec_resume h (fun _ => hhold), hsame, hbody, settle_quiet (quiet_forward _ (by exact h.1))]
  · have hbody : resumeHold (forward (pageWrite s 20 2 .both) { s with pins := { s.pins with hold := false } }) =
        forward (pageWrite s 20 2 .both)
          { s with pins := { s.pins with hold := false }
                   office := { s.office with holdStill := false, holdLatch := false } } := resumeHold_clears (s := forward _ _) rfl hclear
    rw [exec_resume h (fun h => absurd h Bool.false_ne_true), hbody, settle_quiet (quiet_forward _ (by exact h.1))]
  · have hsame : s.lines.map releasedLine = s.lines := by
      refine Vector.ext fun i hi => ?_
      rw [Vector.getElem_map]
      exact if_neg (hnone ⟨i, hi⟩)
    have hrelease := exec_resume_releases h hl hrun
    rw [hsame] at hrelease
    exact hrelease
  · exact exec_resume_releases h hl hrun

end Sys2Proof.LineWords

/-! SUPPORT. The fields of a word that is written as a sum of its parts, bit by bit. -/

namespace Sys2Proof.Machine

variable {s e : State} {n : LineNo}

/-! ## Fields of a sum -/

theorem bit_eq (b : Bool) (k : Nat) : bit b k = b.toNat * 2 ^ k := by
  cases b <;> simp [bit]

/-- One bit of a word by its place in the sum. -/
theorem getLsbD_ofNat_eq {x k : Nat} {b : Bool} (hk : k < 16) (h : x / 2 ^ k % 2 = b.toNat) :
    (BitVec.ofNat 16 x).getLsbD k = b := by
  rw [BitVec.getLsbD_ofNat, decide_eq_true hk, Bool.true_and, Nat.testBit_eq_decide_div_mod_eq, h]
  cases b <;> rfl

/-- A field of a word by its place in the sum. -/
theorem extract_ofNat_eq {x lo w y : Nat} (hw : lo + w ≤ 16) (h : x / 2 ^ lo % 2 ^ w = y % 2 ^ w) :
    (BitVec.ofNat 16 x).extractLsb' lo w = BitVec.ofNat w y := by
  refine BitVec.eq_of_toNat_eq ?_
  have hlo : 2 ^ 16 = 2 ^ lo * (2 ^ (16 - lo - w) * 2 ^ w) := by
    rw [← pow_add, ← pow_add]
    congr 1
    omega
  rw [BitVec.extractLsb'_toNat, BitVec.toNat_ofNat, BitVec.toNat_ofNat, Nat.shiftRight_eq_div_pow, hlo,
    Nat.mod_mul_right_div_self, Nat.mod_mul_left_mod, h]

/-- A word put together from two fields is the sum of its parts. -/
theorem toNat_append_eq {v w : Nat} (x : BitVec v) (y : BitVec w) : (x ++ y).toNat = x.toNat * 2 ^ w + y.toNat := by
  rw [BitVec.toNat_append, ← Nat.shiftLeft_add_eq_or_of_lt y.isLt, Nat.shiftLeft_eq]

/-! ## The status words -/

theorem OfficeState.number_lt (o : OfficeState) : o.number < 3 := by cases o <;> decide

theorem RxState.number_lt (r : RxState) : r.number < 4 := by cases r <;> decide

theorem TxState.number_lt (t : TxState) : t.number < 10 := by cases t <;> decide

/-- The free entries of a table, counted by their numbers. -/
theorem length_filter_finRange {α : Type} {k : Nat} (v : Vector α k) (p : α → Bool) :
    (v.toList.filter p).length = ((List.finRange k).filter (fun i => p v[i])).length := by
  have hmap : v.toList = (List.finRange k).map (fun i => v[i]) := by
    refine List.ext_getElem (by simp) fun i hi hj => ?_
    simp
  rw [hmap, List.filter_map, List.length_map]
  rfl

theorem detail2_eq (lo hi : Nat) : detail2 lo hi = BitVec.ofNat 8 hi ++ BitVec.ofNat 8 lo := by
  refine BitVec.eq_of_toNat_eq ?_
  rw [toNat_append_eq]
  unfold detail2
  simp only [BitVec.toNat_ofNat]
  omega

/-! ## Live words (R6) -/

/-- A read of a live word but the claim word is answered (R6). -/
theorem processorRead_live {off : Nat} {w : Word} (hr : s.resetIn = false) (hoff : off < 1024) (h34 : off ≠ 34)
    (hlive : off = 32 ∨ running s = true) (hw : liveWord s off = some w) :
    processorRead (pageAddr s off) s = { s with path := { s.path with pdOut := w } } := by
  rw [processorRead_open hr]
  unfold arriveRead
  rw [pageOffset_pageAddr s hoff, Option.bind_some, substituted, if_neg h34, if_pos hlive, hw]
  rfl

/-- Before RUNNING the live words but the office status word are read from the store (R6). -/
theorem processorRead_asleep {off : Nat} (hr : s.resetIn = false) (hoff : off < 1024) (h32 : off ≠ 32)
    (hrun : running s = false) : processorRead (pageAddr s off) s = forward ⟨pageAddr s off, none⟩ s := by
  rw [processorRead_open hr]
  unfold arriveRead
  have hnone : substituted s off = none := by simp [substituted, hrun, h32]
  rw [pageOffset_pageAddr s hoff, Option.bind_some, hnone]

theorem liveWord_line (n : LineNo) (s : State) : liveWord s (64 + 2 * n.val) = some (lineStatus1 s n) ∧
    liveWord s (65 + 2 * n.val) = some (lineStatus2 s n) ∧ liveWord s (192 + n.val) = some (tallyWord s n) := by
  have hn := n.isLt
  refine ⟨?_, ?_, ?_⟩ <;> unfold liveWord <;>
    rw [if_neg (by omega), if_neg (by omega), if_neg (by omega), if_neg (by omega), if_neg (by omega), if_neg (by omega),
      if_neg (by omega)]
  · rw [dif_pos (by omega)]
    dsimp only
    rw [if_pos (by omega), show (⟨(64 + 2 * n.val - 64) / 2, by omega⟩ : LineNo) = n from Fin.ext (by simp)]
  · rw [dif_pos (by omega)]
    dsimp only
    rw [if_neg (by omega), show (⟨(65 + 2 * n.val - 64) / 2, by omega⟩ : LineNo) = n from Fin.ext (by simp; omega)]
  · rw [dif_neg (by omega), dif_pos (by omega), show (⟨192 + n.val - 192, by omega⟩ : LineNo) = n from Fin.ext (by simp)]

theorem cancelInHand_iff {l : LineUnit} : cancelInHand s l = true ↔
    ∃ h, l.tx.hand = some h ∧ s.du.entries[h.number].cancelPending = true := by
  unfold cancelInHand
  cases l.tx.hand <;> simp

end Sys2Proof.Machine

/-! PROOFS. The words that the part shows the processor. -/

namespace Sys2Proof.LineWords
open Sys2Proof.Machine

theorem officeStatus_fields (s : State) : (officeStatus s).extractLsb' 0 2 =
      (match s.office.state with | .dormant => 0#2 | .setupRead => 1#2 | .poolBuild => 1#2 | .running => 2#2) ∧
    (officeStatus s).getLsbD 2 = s.office.setupLocked ∧ (officeStatus s).getLsbD 3 = s.office.holdLatch ∧
    (officeStatus s).getLsbD 4 = s.pins.hold ∧ (officeStatus s).getLsbD 5 = s.office.holdStill ∧
    (officeStatus s).getLsbD 6 = s.report.overflow ∧ (officeStatus s).getLsbD 7 = s.report.badRead ∧
    (officeStatus s).extractLsb' 8 8 = BitVec.ofNat 8 (if running s then s.report.tally else s.office.refusal) := by
  have hstate : (match s.office.state with | .dormant => 0#2 | .setupRead => 1#2 | .poolBuild => 1#2 | .running => 2#2) =
      BitVec.ofNat 2 s.office.state.number := by
    cases s.office.state <;> rfl
  have h0 := s.office.state.number_lt
  have h2 := s.office.setupLocked.toNat_le
  have h3 := s.office.holdLatch.toNat_le
  have h4 := s.pins.hold.toNat_le
  have h5 := s.office.holdStill.toNat_le
  have h6 := s.report.overflow.toNat_le
  have h7 := s.report.badRead.toNat_le
  rw [hstate]
  unfold officeStatus
  simp only [bit_eq]
  refine ⟨extract_ofNat_eq ?_ ?_, getLsbD_ofNat_eq ?_ ?_, getLsbD_ofNat_eq ?_ ?_, getLsbD_ofNat_eq ?_ ?_,
    getLsbD_ofNat_eq ?_ ?_, getLsbD_ofNat_eq ?_ ?_, getLsbD_ofNat_eq ?_ ?_, extract_ofNat_eq ?_ ?_⟩ <;> omega

theorem lineStatus1_fields (s : State) (n : LineNo) : (lineStatus1 s n).extractLsb' 0 2 =
      (match s.lines[n].rx.state with | .off => 0#2 | .hunting => 0#2 | .header => 1#2 | .text => 2#2 | .closing => 3#2) ∧
    (lineStatus1 s n).getLsbD 2 = s.pool.starved.contains n ∧ (lineStatus1 s n).getLsbD 3 = s.lines[n].faulted ∧
    (lineStatus1 s n).getLsbD 4 = s.lines[n].rx.noise ∧
    (lineStatus1 s n).extractLsb' 5 4 =
      (match s.lines[n].tx.state with
        | .off => 0#4 | .preamble => 1#4 | .idle => 2#4 | .guarding => 3#4 | .calling => 4#4 | .answerWait => 5#4
        | .sending => 6#4 | .breakIn => 7#4 | .held => 8#4 | .pause => 9#4) ∧
    (lineStatus1 s n).getLsbD 9 = (s.lines[n].tx.state != .off) ∧
    (lineStatus1 s n).getLsbD 10 = s.lines[n].tx.stopping ∧
    (lineStatus1 s n).getLsbD 11 = s.lines[n].settingsPending ∧
    (lineStatus1 s n).getLsbD 12 = (s.lines[n].active.type == .party) ∧
    (lineStatus1 s n).getLsbD 13 = decide (s.lines[n].active.divisor.toNat < 63) ∧
    (lineStatus1 s n).getLsbD 14 = cancelInHand s s.lines[n] ∧
    (lineStatus1 s n).getLsbD 15 = s.lines[n].tx.breakInPending := by
  have hrx : (match s.lines[n].rx.state with
      | .off => 0#2 | .hunting => 0#2 | .header => 1#2 | .text => 2#2 | .closing => 3#2) =
      BitVec.ofNat 2 s.lines[n].rx.state.number := by
    cases s.lines[n].rx.state <;> rfl
  have htx : (match s.lines[n].tx.state with
        | .off => 0#4 | .preamble => 1#4 | .idle => 2#4 | .guarding => 3#4 | .calling => 4#4 | .answerWait => 5#4
        | .sending => 6#4 | .breakIn => 7#4 | .held => 8#4 | .pause => 9#4) =
      BitVec.ofNat 4 s.lines[n].tx.state.number := by
    cases s.lines[n].tx.state <;> rfl
  rw [hrx, htx]
  unfold lineStatus1
  simp only [bit_eq]
  generalize s.lines[n] = l
  have h0 := l.rx.state.number_lt
  have h2 := (s.pool.starved.contains n).toNat_le
  have h3 := l.faulted.toNat_le
  have h4 := l.rx.noise.toNat_le
  have h5 := l.tx.state.number_lt
  have h9 := (enabled l).toNat_le
  have h10 := l.tx.stopping.toNat_le
  have h11 := l.settingsPending.toNat_le
  have h12 := (isParty l).toNat_le
  have h13 := (decide (l.active.divisor.toNat < 63)).toNat_le
  have h14 := (cancelInHand s l).toNat_le
  have h15 := l.tx.breakInPending.toNat_le
  refine ⟨extract_ofNat_eq ?_ ?_, getLsbD_ofNat_eq ?_ ?_, getLsbD_ofNat_eq ?_ ?_, getLsbD_ofNat_eq ?_ ?_,
    extract_ofNat_eq ?_ ?_, getLsbD_ofNat_eq (b := enabled l) ?_ ?_, getLsbD_ofNat_eq ?_ ?_, getLsbD_ofNat_eq ?_ ?_,
    getLsbD_ofNat_eq (b := isParty l) ?_ ?_, getLsbD_ofNat_eq ?_ ?_, getLsbD_ofNat_eq ?_ ?_,
    getLsbD_ofNat_eq ?_ ?_⟩ <;> omega

/-- Settles O59: each field by its place in the sum, and each live word by its offset. -/
theorem statusWords : Obligations.StatusWords := by
  refine ⟨officeStatus_fields, fun s n => ?_, fun s hr => processorRead_live hr (by decide) (by decide) (.inl rfl) rfl,
    fun s off hr => ⟨fun hrun w hw => ?_, fun hrun hoff => processorRead_asleep hr (by omega) (by omega) hrun⟩⟩
  · obtain ⟨h0, h2, h3, h4, h5, h9, h10, h11, h12, h13, h14, h15⟩ := lineStatus1_fields s n
    exact ⟨h0, h2, h3, h4, h5, h9, h10, h11, h12, h13, by rw [h14, cancelInHand_iff], h15⟩
  · have hread : off < 1024 → off ≠ 34 → liveWord s off = some w →
        processorRead (pageAddr s off) s = { s with path := { s.path with pdOut := w } } := fun hoff h34 hlive =>
      processorRead_live hr hoff h34 (.inr hrun) hlive
    rcases hw with ⟨rfl, rfl⟩ | ⟨rfl, rfl⟩ | ⟨rfl, rfl⟩ | ⟨rfl, rfl⟩ | ⟨rfl, rfl⟩ | ⟨rfl, rfl⟩ |
      ⟨n, ⟨rfl, rfl⟩ | ⟨rfl, rfl⟩ | ⟨rfl, rfl⟩⟩
    · exact hread (by decide) (by decide) rfl
    · exact hread (by decide) (by decide) (congrArg some (BitVec.eq_of_toNat_eq (by simp)))
    · exact hread (by decide) (by decide) rfl
    · exact hread (by decide) (by decide) rfl
    · refine hread (by decide) (by decide) ?_
      show some (BitVec.ofNat 16 (freeDeliveries s)) = _
      rw [freeDeliveries, length_filter_finRange]
    · refine hread (by decide) (by decide) ?_
      show some (BitVec.ofNat 16 (freeTransits s)) = _
      rw [freeTransits, length_filter_finRange]
    · exact hread (by omega) (by omega) (liveWord_line n s).1
    · exact hread (by omega) (by omega) ((liveWord_line n s).2.1.trans (congrArg some (detail2_eq _ _)))
    · refine hread (by omega) (by omega) ((liveWord_line n s).2.2.trans ?_)
      rw [tallyWord, detail2_eq]

end Sys2Proof.LineWords

/-! SUPPORT. The Report Unit: a record placed at once, the words of a record, and the order in which the offers of one event
are taken. -/

namespace Sys2Proof.Machine

variable {s e : State} {n : LineNo}

/-! ## The words of one record (R183) -/

/-- Word `w` of the record of index `x`, as the Report Unit offers it. -/
def reportWord (s : State) (x : Word) (r : Record) (w : Nat) : Req :=
  wordReq (ringWord s x w) (r.word w) .report (.reportWord (w == 3))

theorem reportWords_eq (s : State) (x : Word) (r : Record) :
    reportWords s x r = [reportWord s x r 0, reportWord s x r 1, reportWord s x r 2, reportWord s x r 3] := rfl

/-- The machine with the Store Port `p`, the Report Unit standing at word `w`. -/
def atWord (w : Nat) (p : StorePort) (s : State) : State :=
  { s with port := p, report := { s.report with wordNext := w } }

section
variable {x : Word} {r : Record} {k : Nat} {p : StorePort}

theorem pump_reportWord {w : Nat} (h : s.report.records = [(x, r)]) (hw : w ≠ 3) (hroom : PortRoom 1 p) :
    pump .report nextReportWord reportWordPlaced (k + 1) (atWord w p s) =
      pump .report nextReportWord reportWordPlaced k (atWord (w + 1) (placedPort (reportWord s x r w) p) s) := by
  have hnext : nextReportWord (atWord w p s) = some (reportWord s x r w) := by
    unfold nextReportWord
    rw [show (atWord w p s).report.records = [(x, r)] from h]
    rfl
  rw [pump_placed hnext (admits_of_room (s := atWord w p s) hroom), place_port]
  exact congrArg _ (congrArg (fun q => { s with port := placedPort (reportWord s x r w) p, report := q }) (if_neg hw))

theorem pump_lastReportWord (h : s.report.records = [(x, r)]) (hroom : PortRoom 1 p) :
    pump .report nextReportWord reportWordPlaced (k + 1) (atWord 3 p s) =
      { s with port := placedPort (reportWord s x r 3) p, report := { s.report with records := [], wordNext := 0 } } := by
  have hnext : nextReportWord (atWord 3 p s) = some (reportWord s x r 3) := by
    unfold nextReportWord
    rw [show (atWord 3 p s).report.records = [(x, r)] from h]
    rfl
  have hplaced : reportWordPlaced (place (reportWord s x r 3) (atWord 3 p s)) =
      { s with port := placedPort (reportWord s x r 3) p, report := { s.report with records := [], wordNext := 0 } } := by
    rw [place_port]
    refine congrArg (fun q => { s with port := placedPort (reportWord s x r 3) p, report := q })
      ((if_pos rfl).trans ?_)
    rw [show (atWord 3 p s).report.records = [(x, r)] from h]
    rfl
  rw [pump_placed hnext (admits_of_room (s := atWord 3 p s) hroom), hplaced, pump_none rfl]

/-- With room at the ring and at the Store Port a report is written at once (R182, R183). -/
theorem takeReport_room (h : RingRoom 1 s) (hroom : PortRoom 4 s.port) : takeReport r s =
    { s with
      port := placedAll (reportWords s s.report.fill r) s.port
      report := { s.report with fill := s.report.fill + 1 } } := by
  obtain ⟨hrec, hnext, hheld⟩ := h
  have h1 := hroom.placed (k := 3) (reportWord s s.report.fill r 0)
  have h2 := h1.placed (k := 2) (reportWord s s.report.fill r 1)
  have h3 := h2.placed (k := 1) (reportWord s s.report.fill r 2)
  obtain ⟨u, hu⟩ : ∃ u : State, u = { s with report := { s.report with
    records := [(s.report.fill, r)], fill := s.report.fill + 1 } } := ⟨_, rfl⟩
  have hrecords : u.report.records = [(s.report.fill, r)] := by rw [hu]
  have hstart : acceptReport r s = atWord 0 s.port u := by
    rw [acceptReport_room (by omega), hrec, hu, ← hnext]
    rfl
  have hword : ∀ w, reportWord u s.report.fill r w = reportWord s s.report.fill r w := fun w => by
    rw [hu]
    rfl
  unfold takeReport pumpReport
  rw [hstart, show pumpFuel = 62 + 4 from rfl, pump_reportWord hrecords (by decide) (hroom.mono (by decide)), hword,
    pump_reportWord hrecords (by decide) (h1.mono (by decide)), hword,
    pump_reportWord hrecords (by decide) (h2.mono (by decide)), hword, pump_lastReportWord hrecords h3, hword,
    reportWords_eq, hu, ← hrec, ← hnext]
  rfl

end

/-! ## The order in which the offers of one event are taken (R182) -/

theorem filterMap_take {α : Type} {os : List α} {order : List Nat} (h : ∀ i ∈ order, i < os.length) (m : Nat) :
    (order.take m).filterMap (fun i => os[i]?) = (order.filterMap (fun i => os[i]?)).take m ∧
      (order.drop m).filterMap (fun i => os[i]?) = (order.filterMap (fun i => os[i]?)).drop m := by
  induction order generalizing m with
  | nil => simp
  | cons i rest ih =>
    rw [List.forall_mem_cons] at h
    cases m with
    | zero => simp
    | succ m =>
      have hi : os[i]? = some os[i] := List.getElem?_eq_getElem h.1
      simp [hi, ih h.2 m]

theorem filterMap_range {α : Type} (os : List α) : (List.range os.length).filterMap (fun i => os[i]?) = os := by
  induction os with
  | nil => rfl
  | cons x rest ih =>
    rw [List.length_cons, List.range_succ_eq_map, List.filterMap_cons, List.filterMap_map]
    simpa [Function.comp_def] using ih

/-- Of two members of a list without repetition one stands before the other. -/
theorem before_or_after {order : List Nat} {i j : Nat} (hi : i ∈ order) (hj : j ∈ order) (hne : i ≠ j) :
    (∃ front mid back, order = front ++ i :: (mid ++ j :: back)) ∨
      (∃ front mid back, order = front ++ j :: (mid ++ i :: back)) := by
  obtain ⟨front, back, rfl⟩ := List.append_of_mem hi
  rcases List.mem_append.1 hj with hj | hj
  · obtain ⟨f, m, rfl⟩ := List.append_of_mem hj
    exact .inr ⟨f, m, back, by simp⟩
  · obtain ⟨m, b, rfl⟩ := List.append_of_mem ((List.mem_cons.1 hj).resolve_left (Ne.symm hne))
    exact .inl ⟨front, m, b, rfl⟩

/-- An order that keeps what the rules order has no later offer before an earlier one that the rules order before it. -/
theorem keepsOrder_spec {os : List Offer} {front mid back : List Nat} {i j : Nat} {x y : Offer}
    (h : keepsOrder os (front ++ j :: (mid ++ i :: back)) = true) (hi : os[i]? = some x) (hj : os[j]? = some y)
    (hij : i < j) : ordersOffers x y = false := by
  induction front with
  | nil =>
    rw [List.nil_append, keepsOrder, Bool.and_eq_true, List.all_eq_true] at h
    have hpair := h.1 i (by simp)
    rw [hi, hj] at hpair
    simpa [hij] using hpair
  | cons k front ih =>
    rw [List.cons_append, keepsOrder, Bool.and_eq_true] at h
    exact ih h.2

/-- In ascending order every earlier offer stands before a later one. -/
theorem range_before {k i j : Nat} (hij : i < j) (hj : j < k) :
    ∃ front mid back, List.range k = front ++ i :: (mid ++ j :: back) := by
  rcases before_or_after (order := List.range k) (List.mem_range.2 (by omega)) (List.mem_range.2 hj) hij.ne with h | h
  · exact h
  · obtain ⟨front, mid, back, h⟩ := h
    have hs : (List.range k).Pairwise (· < ·) := List.pairwise_lt_range
    rw [h, List.pairwise_append] at hs
    have := (List.pairwise_cons.1 hs.2.1).1 i (by simp)
    omega

/-- The order in which the offers stand: a permutation that keeps what the rules order. -/
structure OfferOrder (os : List Offer) (order : List Nat) : Prop where
  perm : order.Perm (List.range os.length)
  keeps : ∀ (i j : Nat) (x y : Offer), i < j → os[i]? = some x → os[j]? = some y →
    x.record.owner = y.record.owner ∨ (x.record.kind = .holdLatched ∧ y.attached = true) →
    ∃ front mid back, order = front ++ i :: (mid ++ j :: back)

theorem offerOrder_range (os : List Offer) : OfferOrder os (List.range os.length) :=
  ⟨.refl _, fun _ _ _ _ hij _ hj _ => range_before hij (List.getElem?_eq_some_iff.1 hj).1⟩

theorem offerOrder_free {os : List Offer} {order : List Nat} (hp : order.Perm (List.range os.length))
    (hk : keepsOrder os order = true) : OfferOrder os order := by
  refine ⟨hp, fun i j x y hij hi hj hxy => ?_⟩
  have hmem : ∀ {l z}, os[l]? = some z → l ∈ order := fun h => hp.mem_iff.2 (List.mem_range.2 (List.getElem?_eq_some_iff.1 h).1)
  rcases before_or_after (hmem hi) (hmem hj) hij.ne with h | ⟨front, mid, back, h⟩
  · exact h
  · have hno := keepsOrder_spec (h ▸ hk) hi hj hij
    simp [ordersOffers] at hno
    rcases hxy with hxy | hxy
    · exact absurd hxy hno.1
    · exact absurd hxy.2 (by simpa [hxy.1] using hno.2)

/-- The offers as they are arranged are those of the event in such an order; those of one owner stand as they were made. -/
theorem arrangeOffers_order (k : Nat) (os : List Offer) : ∃ order, OfferOrder os order ∧
    arrangeOffers k os = order.filterMap (fun i => os[i]?) ∧ (oneOwner os = true → order = List.range os.length) := by
  unfold arrangeOffers
  dsimp only
  split
  · exact ⟨_, offerOrder_range os, (filterMap_range os).symm, fun _ => rfl⟩
  · next hone =>
    split
    · next h =>
      rw [Bool.and_eq_true, List.isPerm_iff] at h
      exact ⟨_, offerOrder_free h.1 h.2, rfl, fun h => absurd h hone⟩
    · exact ⟨_, offerOrder_range os, (filterMap_range os).symm, fun _ => rfl⟩

/-- Past the offers that are taken none is left that was asked for. -/
theorem offersUntil_spec (p : Offer → Bool) (os : List Offer) : ∀ o ∈ os.drop (offersUntil p os), p o = false := by
  intro o ho
  have hdrop : os.drop (offersUntil p os) = (os.reverse.takeWhile (fun o => !p o)).reverse := by
    have hrev : (os.reverse.takeWhile (fun o => !p o)) = os.reverse.take (os.reverse.takeWhile (fun o => !p o)).length :=
      List.prefix_iff_eq_take.1 (List.takeWhile_prefix _)
    rw [hrev, List.reverse_take, List.reverse_reverse, List.length_reverse]
    rfl
  rw [hdrop, List.mem_reverse] at ho
  simpa using List.mem_takeWhile_imp ho

theorem oneOwner_of_all {os : List Offer} (h : ∀ x ∈ os, ∀ y ∈ os, x.record.owner = y.record.owner) : oneOwner os = true := by
  cases os with
  | nil => rfl
  | cons o rest =>
    rw [oneOwner, List.all_eq_true]
    exact fun x hx => beq_iff_eq.2 (h x (List.mem_cons_of_mem _ hx) o List.mem_cons_self)

end Sys2Proof.Machine

/-! PROOFS. The statement about the Report Unit. -/

namespace Sys2Proof.Reports
open Sys2Proof.Machine

/-- The words of a record, bit by bit (R187). -/
theorem record_words (r : Record) : (r.word 0).extractLsb' 0 5 = (match r.kind with
      | .messageRouted => 1#5 | .messageHeld => 2#5 | .messageAbandoned => 3#5 | .deliveryDone => 4#5
      | .deliveryInterrupted => 5#5 | .deliveryFailed => 6#5 | .deliveryCancelled => 7#5 | .stationUnanswered => 8#5
      | .messageReleased => 9#5 | .messageReturned => 10#5 | .postRefused => 11#5 | .cancelRefused => 12#5
      | .guardViolation => 13#5 | .commit => 14#5 | .lineFault => 15#5 | .lineRestored => 16#5
      | .holdLatched => 17#5 | .holdResumed => 18#5) ∧
    (r.word 0).extractLsb' 5 3 = BitVec.ofNat 3 r.qualifier ∧ (r.word 0).extractLsb' 8 5 = BitVec.ofNat 5 r.line ∧
    (r.word 0).extractLsb' 13 3 = 0#3 ∧ r.word 1 = r.block ∧ r.word 2 = r.detail ∧ r.word 3 = r.time.extractLsb' 0 16 := by
  have hkind : ∀ k : ReportKind, (match k with
      | .messageRouted => 1#5 | .messageHeld => 2#5 | .messageAbandoned => 3#5 | .deliveryDone => 4#5
      | .deliveryInterrupted => 5#5 | .deliveryFailed => 6#5 | .deliveryCancelled => 7#5 | .stationUnanswered => 8#5
      | .messageReleased => 9#5 | .messageReturned => 10#5 | .postRefused => 11#5 | .cancelRefused => 12#5
      | .guardViolation => 13#5 | .commit => 14#5 | .lineFault => 15#5 | .lineRestored => 16#5
      | .holdLatched => 17#5 | .holdResumed => 18#5) = BitVec.ofNat 5 k.number ∧ k.number < 32 := fun k => by
    cases k <;> exact ⟨rfl, by decide⟩
  obtain ⟨hnumber, hlt⟩ := hkind r.kind
  rw [hnumber]
  unfold Record.word
  refine ⟨extract_ofNat_eq ?_ ?_, extract_ofNat_eq ?_ ?_, extract_ofNat_eq ?_ ?_, extract_ofNat_eq (y := 0) ?_ ?_, rfl, rfl,
    BitVec.eq_of_toNat_eq (by simp [time16])⟩ <;> omega

/-- The offers are taken in an order that keeps what the rules order, up to the last that is asked for. -/
theorem takeUntil_order (s : State) (p : Offer → Bool) : ∃ (order : List Nat) (m count : Nat),
    OfferOrder s.report.offers order ∧
    takeUntil p s = ((order.take m).filterMap (fun i => s.report.offers[i]?)).foldl (fun s o => takeReport o.record s)
      { s with
        freeCount := count
        report := { s.report with offers := (order.drop m).filterMap (fun i => s.report.offers[i]?) } } ∧
    (∀ o ∈ (order.drop m).filterMap (fun i => s.report.offers[i]?), p o = false) ∧
    (oneOwner s.report.offers = true → count = s.freeCount ∧ order = List.range s.report.offers.length) ∧
    s.freeCount ≤ count := by
  cases hany : s.report.offers.any p with
  | false =>
    refine ⟨List.range s.report.offers.length, 0, s.freeCount, offerOrder_range _, ?_, fun o ho => ?_, fun _ => ⟨rfl, rfl⟩,
      Nat.le_refl _⟩
    · rw [takeUntil_none p hany, List.drop_zero, filterMap_range]
      rfl
    · rw [List.drop_zero, filterMap_range] at ho
      exact Bool.eq_false_iff.2 fun hp => by simp [List.any_eq_false.1 hany o ho] at hp
  | true =>
    obtain ⟨order, horder, harrange, hrange⟩ := arrangeOffers_order s.freeCount s.report.offers
    have hlt : ∀ i ∈ order, i < s.report.offers.length := fun i hi => List.mem_range.1 (horder.perm.mem_iff.1 hi)
    refine ⟨order, offersUntil p (arrangeOffers s.freeCount s.report.offers),
      if oneOwner s.report.offers then s.freeCount else s.freeCount + 1, horder, ?_, ?_, fun h => ⟨if_pos h, hrange h⟩, ?_⟩
    · rw [(filterMap_take hlt _).1, (filterMap_take hlt _).2, ← harrange]
      unfold takeUntil
      rw [if_pos hany]
    · rw [(filterMap_take hlt _).2, ← harrange]
      exact offersUntil_spec p _
    · split
      · exact Nat.le_refl _
      · exact Nat.le_succ _

/-- Settles O57: an offer that is taken, the words of a record, its owner, and the order of the offers of one event. -/
theorem reportUnit : Obligations.ReportUnit := by
  refine ⟨fun r s => ?_, ⟨fun r s hrec hnext hheld hroom => ?_, fun s a v hq hserve => ?_⟩, record_words, fun r => ?_,
    fun s p => ?_, fun s r => ⟨rfl, rfl⟩⟩
  · have ho := offers_takeReport r s
    have hr : (eventEnd (takeReport r s)).report = { (takeReport r s).report with
        attn := (eventEnd (takeReport r s)).report.attn } := by
      conv_lhs => rw [eventEnd_eq]
    have hpart : SamePart s (takeReport r s) := by
      have hp := ho.part
      unfold SamePart at hp
      rw [eventEnd_eq] at hp
      exact hp
    have hwrite := ho.write
    have hread := ho.read
    have hbad := ho.badRead
    have hacc := ho.accepted
    have hdis := ho.discarded
    rw [hr] at hwrite hread hbad hacc hdis
    exact ⟨hpart, hread, hwrite, hbad, takeReport_offers r s, hacc, hdis⟩
  · rw [takeReport_room ⟨hrec, hnext, hheld⟩ hroom]
    exact ⟨hrec, portRequests_placedAll _ _⟩
  · show execReportWordCompletion s = _
    refine completion_ends (p := (· == .reportWord true)) hserve rfl ?_ (e := { ended s with
      store := s.store.write a ⟨v, .both⟩, report := { s.report with write := s.report.write + 1 } }) hq
    rw [finishRequest_plain s (by simp [wordReq])]
    rfl
  · unfold Record.owner
    cases r.kind <;> rfl
  · obtain ⟨order, m, count, horder, htake, hrest, hone, hcount⟩ := takeUntil_order s p
    refine ⟨order, m, count, horder.perm, htake, hrest, horder.keeps, fun h => hone (oneOwner_of_all h), fun h => ?_, hcount⟩
    exact takeUntil_none p (List.any_eq_false.2 fun o ho => by simp [h o ho])

end Sys2Proof.Reports

/-! SUPPORT. The Chain Walker: the completions of its requests, the requests it places one after another, and the walks that
end or fail. -/

namespace Sys2Proof.Machine

variable {s e : State} {n : LineNo} {w : Walk}

/-! ## Completions of the walker's requests -/

section
variable {a : Addr} {pur : Purpose} {p : Purpose → Bool} {f : Walk → Word → State → State}

theorem walkCompletion_read (h : Serving (readReq a .walker pur) s) (hp : p pur = true) (hw : s.walker.walk = some w) :
    walkCompletion p f s = .next (settle (f w (s.store.readWord a) (ended s))) := by
  refine (completion_serving h hp).trans ?_
  rw [finishRequest_read s (by simp [readReq]) rfl, show (ended s).walker.walk = some w from hw]
  rfl

/-- The store as a write of the walker completes. -/
def writtenBy (q : Req) (s : State) : State := { ended s with store := s.store.serve q.addr q.write }

theorem walkCompletion_write {q : Req} (h : Serving q s) (hi : q.issuer = .walker) (hp : p q.purpose = true)
    (hw : s.walker.walk = some w) :
    walkCompletion p f s = .next (settle (f w (s.store.readWord q.addr) (writtenBy q s))) := by
  refine (completion_serving h hp).trans ?_
  rw [finishRequest_plain s (by simp [hi])]
  dsimp only
  rw [show (ended s).walker.walk = some w from hw]
  rfl

end

/-! ## The walker's requests, one after another (R32) -/

/-- The machine with the Store Port `p`, the walk `w` having the requests `rs` still to place. -/
def atTodo (w : Walk) (o : Option Req) (rs : List Req) (p : StorePort) (s : State) : State :=
  { s with port := p, walker := { s.walker with walk := some { w with todo := rs }, offered := o } }

theorem nextWalkRequest_todo (hl : s.walker.links = []) (o : Option Req) (rs : List Req) (p : StorePort) :
    nextWalkRequest (atTodo w o rs p s) = rs.head? := by
  unfold nextWalkRequest
  rw [show (atTodo w o rs p s).walker.links = [] from hl]
  rfl

/-- One request of a walk is placed. -/
theorem pumpWalker_step {o : Option Req} {r : Req} {rs : List Req} {p : StorePort} {k : Nat} (hl : s.walker.links = [])
    (hr : r.purpose ≠ .freeLink) (hw : p.waiting = []) (hq : p.queue.length < Config.queuePlaces) :
    pumpWalkerRounds (k + 1) (atTodo w o (r :: rs) p s) =
      pumpWalkerRounds k (atTodo w none rs (placedPort r p) s) := by
  have hadmits : admits (atTodo w o (r :: rs) p s) = true := by
    unfold admits
    rw [show (atTodo w o (r :: rs) p s).port = p from rfl, hw, decide_eq_true hq]
    rfl
  rw [pumpWalkerRounds, if_neg (by rw [show (atTodo w o (r :: rs) p s).port = p from rfl, hw]; simp),
    nextWalkRequest_todo hl]
  dsimp only [List.head?_cons]
  rw [if_pos hadmits, place_port]
  refine congrArg _ ?_
  unfold walkRequestPlaced updWalker
  simp only [if_neg hr]
  rfl

theorem pumpWalker_rests {o : Option Req} {p : StorePort} {k : Nat} (hl : s.walker.links = []) :
    pumpWalkerRounds k (atTodo w o [] p s) = atTodo w o [] p s := by
  cases k with
  | zero => rfl
  | succ k =>
    rw [pumpWalkerRounds]
    split
    · rfl
    · rw [nextWalkRequest_todo hl]
      rfl

/-- With room the walk's requests are all placed. -/
theorem pumpWalkerRounds_room {rs : List Req} {o : Option Req} {p : StorePort} {k : Nat} (hl : s.walker.links = [])
    (hrs : ∀ r ∈ rs, r.purpose ≠ .freeLink) (hk : rs.length ≤ k) (hp : PortRoom rs.length p) :
    pumpWalkerRounds k (atTodo w o rs p s) = atTodo w (if rs = [] then o else none) [] (placedAll rs p) s := by
  induction rs generalizing o p k with
  | nil => exact pumpWalker_rests hl
  | cons r rs ih =>
    obtain ⟨k, rfl⟩ := Nat.exists_eq_add_of_le' (Nat.lt_of_lt_of_le (Nat.succ_pos _) hk)
    rw [List.forall_mem_cons] at hrs
    have hq := hp.2
    rw [List.length_cons] at hk hq
    rw [pumpWalker_step hl hrs.1 hp.1 (by omega), ih hrs.2 (by omega) (hp.placed r), if_neg (List.cons_ne_nil _ _)]
    simp only [ite_self]
    rfl

theorem pumpWalker_room {rs : List Req} (hs : s.walker.walk = some { w with todo := rs }) (hne : rs ≠ [])
    (hl : s.walker.links = []) (hrs : ∀ r ∈ rs, r.purpose ≠ .freeLink) (hp : PortRoom rs.length s.port) :
    pumpWalker s = atTodo w none [] (placedAll rs s.port) s := by
  have hstart : s = atTodo w s.walker.offered rs s.port s := by
    unfold atTodo
    rw [← hs]
  unfold pumpWalker
  have hlen := hp.2
  conv_lhs => rw [hstart]
  rw [pumpWalkerRounds_room hl hrs (by unfold pumpFuel; omega) hp, if_neg hne]

/-- At a taken bus a placement only joins the tail of the queue (R8, R10). -/
theorem placedPort_busy {r : Req} {p : StorePort} (h : p.cycle ≠ none) : placedPort r p = { p with queue := p.queue ++ [r] } := by
  show (startCycle { State.reset with port := { p with queue := p.queue ++ [r] } }).port = _
  rw [startCycle_taken (by exact h)]

theorem pumpWalker_blocked {o : Option Req} {r : Req} {rs : List Req} {p : StorePort} {k : Nat} (hl : s.walker.links = [])
    (hp : p.waiting ≠ [] ∨ Config.queuePlaces ≤ p.queue.length) :
    ∃ o' p', pumpWalkerRounds (k + 1) (atTodo w o (r :: rs) p s) = atTodo w o' (r :: rs) p' s ∧
      portRequests p' = portRequests p := by
  rw [pumpWalkerRounds]
  split
  · exact ⟨o, p, rfl, rfl⟩
  · have hadmits : admits (atTodo w o (r :: rs) p s) = false := by
      rcases hp with hp | hp
      · exact admits_of_waiting hp
      · unfold admits
        rw [show (atTodo w o (r :: rs) p s).port = p from rfl, decide_eq_false (Nat.not_lt.2 hp)]
        rfl
    rw [nextWalkRequest_todo hl]
    dsimp only [List.head?_cons]
    rw [if_neg (by simp [hadmits]), waitFor_port]
    exact ⟨some r, waitingPort .walker p, rfl, portRequests_waiting _ _⟩

/-- At a taken bus the walk places as many of its requests as the queue has places for (R8, R32). -/
theorem pumpWalkerRounds_busy {rs : List Req} {o : Option Req} {p : StorePort} {k : Nat} (hl : s.walker.links = [])
    (hrs : ∀ r ∈ rs, r.purpose ≠ .freeLink) (hc : p.cycle ≠ none) (hw : p.waiting = [])
    (hk : Config.queuePlaces - p.queue.length < k) :
    ∃ o' p', pumpWalkerRounds k (atTodo w o rs p s) =
        atTodo w o' (rs.drop (Config.queuePlaces - p.queue.length)) p' s ∧
      portRequests p' = portRequests p ++ rs.take (Config.queuePlaces - p.queue.length) := by
  induction rs generalizing o p k with
  | nil => exact ⟨o, p, by rw [pumpWalker_rests hl, List.drop_nil], by rw [List.take_nil, List.append_nil]⟩
  | cons r rs ih =>
    obtain ⟨k, rfl⟩ := Nat.exists_eq_add_of_le' (Nat.lt_of_le_of_lt (Nat.zero_le _) hk)
    rw [List.forall_mem_cons] at hrs
    by_cases hq : p.queue.length < Config.queuePlaces
    · have hbusy := placedPort_busy (r := r) hc
      obtain ⟨free, hfree⟩ := Nat.exists_eq_add_of_lt hq
      have hleft : Config.queuePlaces - p.queue.length = (Config.queuePlaces - (placedPort r p).queue.length) + 1 := by
        rw [hbusy]
        simp only [List.length_append, List.length_cons, List.length_nil]
        omega
      obtain ⟨o', p', hpump, hreq⟩ := ih (o := none) (p := placedPort r p) (k := k) hrs.2 (by rw [hbusy]; exact hc)
        (by rw [placedPort_waiting]; exact hw) (by omega)
      refine ⟨o', p', ?_, ?_⟩
      · rw [pumpWalker_step hl hrs.1 hw hq, hpump, hleft, List.drop_succ_cons]
      · rw [hreq, hleft, List.take_succ_cons, portRequests_placed, List.append_assoc]
        rfl
    · obtain ⟨o', p', hpump, hreq⟩ := pumpWalker_blocked (s := s) (w := w) (o := o) (r := r) (rs := rs) (k := k) hl
        (.inr (Nat.not_lt.1 hq))
      rw [Nat.sub_eq_zero_of_le (Nat.not_lt.1 hq)]
      exact ⟨o', p', hpump, by rw [hreq, List.take_zero, List.append_nil]⟩

/-- The places that an empty Store Port has for requests that come one after another: one more than its queue has, where the
first of them begins its cycle at once (R10). -/
def startPlaces (p : StorePort) : Nat := if p.fwd = none ∨ p.lastServed = .processor then 65 else 64

/-- At a free bus a placement begins a cycle: that of the request where no access waits, or where it is the turn of the
internal requests. -/
theorem placedPort_free {r : Req} {p : StorePort} (hc : p.cycle = none) : (placedPort r p).cycle ≠ none ∧
    (p.queue = [] → (placedPort r p).queue.length = if p.fwd = none ∨ p.lastServed = .processor then 0 else 1) := by
  unfold placedPort startedPort
  refine ⟨fun h => ?_, fun hq => ?_⟩
  · obtain ⟨-, hcyc | hcyc⟩ | ⟨a, -, -, hs⟩ | ⟨x, rest, -, -, hs⟩ :=
      startCycle_cases { State.reset with port := { p with queue := p.queue ++ [r] } }
    · exact hcyc hc
    · exact absurd hcyc.2 (by simp)
    · rw [hs] at h
      exact absurd h (by simp)
    · rw [hs] at h
      exact absurd h (by simp)
  · split
    · next hturn =>
      rw [startCycle_internal (s := { State.reset with port := { p with queue := p.queue ++ [r] } }) (r := r) (rest := [])
        hc (by rw [hq]; rfl) hturn]
      rfl
    · next hturn =>
      push Not at hturn
      obtain ⟨a, ha⟩ := Option.ne_none_iff_exists'.1 hturn.1
      have hlast : p.lastServed = .internal := by
        cases h : p.lastServed with
        | internal => rfl
        | processor => exact absurd h hturn.2
      rw [startCycle_forwarded (s := { State.reset with port := { p with queue := p.queue ++ [r] } }) hc ha (.inr hlast)]
      simp [hq]

/-- At a free bus the walk places some of its requests, and as many as there are places for where no other request waits. -/
theorem pumpWalker_free {rs : List Req} {o : Option Req} {p : StorePort} (hl : s.walker.links = [])
    (hrs : ∀ r ∈ rs, r.purpose ≠ .freeLink) (hc : p.cycle = none) :
    ∃ o' p' k, pumpWalker (atTodo w o rs p s) = atTodo w o' (rs.drop k) p' s ∧
      portRequests p' = portRequests p ++ rs.take k ∧
      (p.queue = [] → p.waiting = [] → k = startPlaces p) := by
  unfold pumpWalker
  cases rs with
  | nil => exact ⟨o, p, startPlaces p, by rw [pumpWalker_rests hl, List.drop_nil], by simp, fun _ _ => rfl⟩
  | cons r rs =>
    by_cases hp : p.waiting ≠ [] ∨ Config.queuePlaces ≤ p.queue.length
    · obtain ⟨o', p', hpump, hreq⟩ := pumpWalker_blocked (s := s) (w := w) (o := o) (r := r) (rs := rs)
        (k := Config.queuePlaces + 1) hl hp
      refine ⟨o', p', 0, hpump, by rw [hreq, List.take_zero, List.append_nil], fun hq hw => ?_⟩
      rcases hp with hp | hp
      · exact absurd hw hp
      · rw [hq] at hp
        exact absurd hp (by decide)
    · push Not at hp
      rw [List.forall_mem_cons] at hrs
      have hcycle := (placedPort_free (r := r) hc).1
      obtain ⟨o', p', hpump, hreq⟩ := pumpWalkerRounds_busy (s := s) (w := w) (o := none) (p := placedPort r p)
        (k := Config.queuePlaces + 1) hl hrs.2 hcycle (by rw [placedPort_waiting]; exact hp.1) (by omega)
      refine ⟨o', p', Config.queuePlaces - (placedPort r p).queue.length + 1, ?_, ?_, fun hq hw => ?_⟩
      · rw [show pumpFuel = Config.queuePlaces + 1 + 1 from rfl, pumpWalker_step hl hrs.1 hp.1 hp.2, hpump,
          List.drop_succ_cons]
      · rw [hreq, List.take_succ_cons, portRequests_placed, List.append_assoc]
        rfl
      · rw [(placedPort_free (r := r) hc).2 hq]
        unfold startPlaces
        split <;> rfl

end Sys2Proof.Machine

/-! SUPPORT. The setup load, and the parts of counted walks and of posting walks. -/

namespace Sys2Proof.Machine

variable {s e t : State} {n : LineNo} {w : Walk}

/-! ## An event that changes what is written out -/

/-- An event whose body is written out but for the Store Port. -/
theorem settle_written {p : StorePort} (h : Quiet e) : ∃ t, settle { e with port := p } = t ∧ SamePart e t ∧
    requests t = portRequests p ∧ t.port.waiting = p.waiting :=
  ⟨_, rfl, settle_port h, requests_settle h, waiting_settle h⟩

/-! ## The setup load (R14 to R16) -/

theorem setupWordDone_eq {v : Word} (h : s.office.state = .setupRead) : setupWordDone v s =
    if (s.office.setupWords ++ [v]).length < 14 then { s with office := { s.office with setupWords := s.office.setupWords ++ [v] } }
    else validateSetup { s with office := { s.office with setupWords := s.office.setupWords ++ [v] } } := if_pos h

theorem validateSetup_refused {k : Nat} (h : setupRefusal (pageBase s).toNat (parseSetup s.office.setupWords) = k + 1) :
    validateSetup s = { s with office := { s.office with state := .dormant, refusal := k + 1 } } := by
  unfold validateSetup
  dsimp only
  rw [h]
  rfl

theorem validateSetup_accepted (h : setupRefusal (pageBase s).toNat (parseSetup s.office.setupWords) = 0) :
    validateSetup s = acceptSetup (parseSetup s.office.setupWords) s := by
  unfold validateSetup
  dsimp only
  rw [h]
  rfl

/-- The link writes of the initialisation walk (R22, R33). -/
def setupLinks (h : HeldSetup) : List Req :=
  (List.range h.poolBlocks).map (fun b =>
    wordReq (BitVec.ofNat 18 (h.poolBase * 32 + b * 32))
      (if b + 1 < h.poolBlocks then BitVec.ofNat 16 (b + 1) else 65535) .walker (.poolLink (b + 1 == h.poolBlocks)))

theorem setupLinks_purpose (h : HeldSetup) : ∀ r ∈ setupLinks h, r.purpose ≠ .freeLink := by
  intro r hr
  obtain ⟨b, -, rfl⟩ := List.mem_map.1 hr
  exact Purpose.noConfusion

theorem setupLinks_length (h : HeldSetup) : (setupLinks h).length = h.poolBlocks := by simp [setupLinks]

/-- The initialisation walk with nothing to place. -/
def setupWalk (h : HeldSetup) : Walk :=
  { req := { kind := .init, first := 0, count := h.poolBlocks, origin := Config.officeLine, reason := 0, transit := none }
    block := 0, acted := 0, marked := [], words := [], serial := 0, todo := [] }

/-- The state after an acceptance, the Chain Walker having placed nothing yet. -/
def acceptedState (h : HeldSetup) (s : State) : State :=
  { s with
    office := { s.office with state := .poolBuild, held := h, refusal := 0 }
    pool := { map := List.replicate h.poolBlocks .free, free := List.range h.poolBlocks, starved := [] } }

theorem acceptSetup_eq (h : HeldSetup) (s : State) : acceptSetup h s =
    pumpWalker (atTodo (setupWalk h) s.walker.offered (setupLinks h) s.port (acceptedState h s)) := rfl

/-- The event at which a setup is accepted (R16, R22, R33). -/
theorem settle_acceptSetup {h : HeldSetup} (hr : s.resetIn = false) (ho : s.report.offers = []) (hc : s.port.cycle = none)
    (hl : s.walker.links = []) : ∃ w k,
      (settle (acceptSetup h s)).office = { s.office with state := .poolBuild, held := h, refusal := 0 } ∧
      (settle (acceptSetup h s)).pool =
        { map := List.replicate h.poolBlocks .free, free := List.range h.poolBlocks, starved := [] } ∧
      (settle (acceptSetup h s)).walker.walk = some w ∧ w.req.kind = .init ∧ w.todo = (setupLinks h).drop k ∧
      requests (settle (acceptSetup h s)) = s.port.queue ++ (setupLinks h).take k ∧
      (s.port.queue = [] → s.port.waiting = [] → k = min h.poolBlocks (startPlaces s.port)) ∧
      (settle (acceptSetup h s)).store = s.store ∧ (settle (acceptSetup h s)).lines = s.lines ∧
      (settle (acceptSetup h s)).du = s.du ∧ (settle (acceptSetup h s)).router = s.router := by
  obtain ⟨o, p, k, hpump, hreq, hcount⟩ := pumpWalker_free (s := acceptedState h s) (w := setupWalk h)
    (o := s.walker.offered) (rs := setupLinks h) hl (setupLinks_purpose h) hc
  have hq : Quiet (atTodo (setupWalk h) o ((setupLinks h).drop k) p (acceptedState h s)) :=
    ⟨hr, .inl (Option.some_ne_none _), ho⟩
  have hpart : SamePart (atTodo (setupWalk h) o ((setupLinks h).drop k) p (acceptedState h s)) (settle (acceptSetup h s)) := by
    rw [acceptSetup_eq, hpump, settle_quiet hq]
    exact samePart_eventEnd _
  have hrequests : requests (settle (acceptSetup h s)) = s.port.queue ++ (setupLinks h).take k := by
    rw [acceptSetup_eq, hpump, settle_quiet hq, requests_eventEnd]
    refine hreq.trans ?_
    simp [portRequests, hc]
  refine ⟨{ setupWalk h with todo := (setupLinks h).drop k }, min h.poolBlocks k, hpart.office, hpart.pool, ?_, rfl, ?_, ?_,
    fun hqueue hwait => by rw [hcount hqueue hwait], hpart.store, hpart.lines, hpart.du, hpart.router⟩
  · rw [hpart.walker]
    rfl
  · rw [← setupLinks_length h]
    exact List.drop_eq_drop_min.trans (by rw [Nat.min_comm])
  · rw [hrequests, ← setupLinks_length h, Nat.min_comm, ← List.take_eq_take_min]

/-! ## The post queue and a failed posting walk (R40, R172) -/

theorem foldl_setBlock (bs : List Nat) (v : BlockState) (s : State) : bs.foldl (fun s b => setBlock b v s) s =
    { s with pool := { s.pool with map := bs.foldl (fun m b => m.set b v) s.pool.map } } := by
  induction bs generalizing s with
  | nil => rfl
  | cons b bs ih =>
    rw [List.foldl_cons, ih]
    rfl

theorem postEnded_eq {p : Word} {rest : List Word} (h : s.post = p :: rest) : postEnded s =
    { s with walker := { s.walker with queue := s.walker.queue ++ nextPost rest }, post := rest } := by
  unfold postEnded
  rw [h, List.tail_cons]
  cases rest with
  | nil =>
    show _ = { s with walker := { s.walker with queue := s.walker.queue ++ [] }, post := [] }
    rw [List.append_nil]
  | cons v rest => rfl

theorem failPosting_eq {p : Word} {rest : List Word} {reason : Nat} (h : s.post = p :: rest) : failPosting w reason s =
    { offerReport (plainReport .postRefused 31 (BitVec.ofNat 16 w.req.first) (BitVec.ofNat 16 reason) s.office.clock)
        { s with pool := { s.pool with map := w.marked.foldl (fun m b => m.set b .held) s.pool.map } } with
      walker := { s.walker with walk := none, queue := s.walker.queue ++ nextPost rest }, post := rest } := by
  unfold failPosting
  rw [foldl_setBlock, postEnded_eq (p := p) (rest := rest) (by exact h)]
  rfl

end Sys2Proof.Machine

namespace Sys2Proof.MemoryPath
open Sys2Proof.Machine

/-- Settles O15: the fourteen words, the validation and the end of the pool build. -/
theorem setupLoad : Obligations.SetupLoad := by
  refine ⟨?_, ?_, fun _ _ _ _ _ _ _ _ _ _ _ _ _ _ => rfl⟩
  · rintro s a ws h links hq hstate hserve rfl rfl rfl
    have hexec : exec .setupReadCompletion s = .next (settle (setupWordDone (s.store.readWord a) (ended s))) := by
      refine (completion_serving (p := (· == .setupRead)) hserve rfl).trans ?_
      rw [finishRequest_read s (by simp [readReq]) rfl]
      rfl
    rw [hexec, setupWordDone_eq (by exact hstate)]
    refine ⟨fun hlen => ?_, fun hlen k hk => ?_, fun hlen hk hl => ?_⟩
    · rw [if_pos (by exact hlen), settle_quiet (by exact hq)]
      rfl
    · rw [if_neg (by rw [show (ended s).office.setupWords = s.office.setupWords from rfl, hlen]; decide),
        validateSetup_refused (by exact hk), settle_quiet (by exact hq)]
      rfl
    · rw [if_neg (by rw [show (ended s).office.setupWords = s.office.setupWords from rfl, hlen]; decide),
        validateSetup_accepted (by exact hk), acceptSetup_eq]
      obtain ⟨w, k, hsettle⟩ := settle_acceptSetup (s := { ended s with office := { s.office with
        setupWords := s.office.setupWords ++ [s.store.readWord a] } })
        (h := parseSetup (s.office.setupWords ++ [s.store.readWord a])) hq.1 hq.2.2 rfl hl
      exact ⟨_, w, k, rfl, hsettle⟩
  · intro s a v hr ho hw hstate hserve
    have hbody : enterRunning { ended s with store := s.store.write a ⟨v, .both⟩ } = { ended s with
       store := s.store.write a ⟨v, .both⟩
       walker := { s.walker with walk := none }
       office := { s.office with state := .running, setupLock := true, clock := 0, divider := 0, serial := 0 } } := if_pos hstate
    show execPoolBuildEnd s = _
    refine completion_ends (p := (· == .poolLink true)) hserve rfl ?_ ⟨hr, .inr hw, ho⟩
    rw [finishRequest_plain s (by simp [wordReq])]
    exact hbody

end Sys2Proof.MemoryPath

/-! SUPPORT. Walks: the blocks they act on, the one link write of a returned block, and the end of a posting walk. -/

namespace Sys2Proof.Machine

variable {s e t : State} {n : LineNo} {w : Walk}

/-- What an event leaves where its next state is written out but for the Chain Walker, the pool and the ring. -/
theorem SamePart.others (h : SamePart e t) (he : { e with pool := s.pool, walker := s.walker, port := s.port, report := s.report } = s) :
    { t with pool := s.pool, walker := s.walker, port := s.port, report := s.report } = s :=
  (congrArg (fun x : State => { x with pool := s.pool, walker := s.walker, port := s.port, report := s.report }) h).trans he

/-- Routing leaves the post queue as it is. -/
theorem keptBelow_post (q : List Word) : KeptBelow (fun _ => True) (fun u => u.post = q) where
  port h _ _ := h
  report h _ := h
  walker h _ := h
  pool h _ := h
  du h _ := h
  count h _ := h
  serial h _ := h
  rx h _ _ := h
  transfer h _ := h
  transmitter h _ _ _ _ := h
  line h _ _ _ := h
  awake _ _ _ := trivial

theorem routeMessage_post {m : MessageRecord} {q : List Word} (h : s.post = q) : (routeMessage m s).post = q :=
  (keptBelow_post q).routeMessage h m

/-! ## Posting walks (R38 to R41) -/

theorem reachPosting_marks {b : Nat} (hb : b < s.office.held.poolBlocks) (hm : w.marked.length < 64)
    (hh : blockState s b = some .held) : reachPosting w b s =
      pumpWalker (atTodo { w with block := b, marked := w.marked ++ [b] } s.walker.offered [linkRead s b .postLink] s.port
        (setBlock b .owned s)) := by
  unfold reachPosting
  rw [if_neg (by omega), if_neg (by exact Nat.not_le.2 hm), if_neg (by simp [hh])]
  rfl

theorem reachPosting_fails {b reason : Nat} (h : (s.office.held.poolBlocks ≤ b ∧ reason = 2) ∨
    (b < s.office.held.poolBlocks ∧ 64 ≤ w.marked.length ∧ reason = 3) ∨
    (b < s.office.held.poolBlocks ∧ w.marked.length < 64 ∧ blockState s b ≠ some .held ∧ reason = 1)) :
    reachPosting w b s = failPosting w reason s := by
  unfold reachPosting
  rcases h with ⟨hb, rfl⟩ | ⟨hb, hm, rfl⟩ | ⟨hb, hm, hh, rfl⟩
  · rw [if_pos hb]
  · rw [if_neg (by omega), if_pos (by exact hm)]
  · rw [if_neg (by omega), if_neg (by exact Nat.not_le.2 hm), if_pos hh]

theorem postHeadReads_length (b : Nat) : (postHeadReads s b).length = 14 := by simp [postHeadReads]

/-- A pump of requests that all find room, as the whole body of an event. -/
theorem settle_walkPlaced {rs : List Req} {o : Option Req} (hr : s.resetIn = false) (ho : s.report.offers = [])
    (hl : s.walker.links = []) (hne : rs ≠ []) (hrs : ∀ r ∈ rs, r.purpose ≠ .freeLink) (hp : PortRoom rs.length s.port) :
    SamePart { s with walker := { s.walker with walk := some { w with todo := [] }, offered := none } }
        (settle (pumpWalker (atTodo w o rs s.port s))) ∧
      requests (settle (pumpWalker (atTodo w o rs s.port s))) = requests s ++ rs := by
  have hlen := hp.2
  have hpump : pumpWalker (atTodo w o rs s.port s) = atTodo w none [] (placedAll rs s.port) s := by
    unfold pumpWalker
    rw [pumpWalkerRounds_room hl hrs (by unfold pumpFuel; omega) hp, if_neg hne]
  have hq : Quiet (atTodo w none [] (placedAll rs s.port) s) := ⟨hr, .inl (Option.some_ne_none _), ho⟩
  rw [hpump]
  refine ⟨settle_port (e := { s with walker := { s.walker with walk := some { w with todo := [] }, offered := none } })
    (p := placedAll rs s.port) ⟨hr, .inl (Option.some_ne_none _), ho⟩, ?_⟩
  rw [settle_quiet hq, requests_eventEnd]
  exact portRequests_placedAll _ _

/-- A posting walk that fails while no other post waits leaves its report alone on offer. -/
theorem settle_failPosting {p : Word} {reason : Nat} (hpost : s.post = [p]) (hr : s.resetIn = false)
    (ho : s.report.offers = []) (hq : s.walker.queue = []) :
    Offers (plainReport .postRefused 31 (BitVec.ofNat 16 w.req.first) (BitVec.ofNat 16 reason) s.office.clock)
      { s with
        pool := { s.pool with map := w.marked.foldl (fun m b => m.set b .held) s.pool.map }
        walker := { s.walker with walk := none }
        post := [] } (settle (failPosting w reason s)) := by
  have hqueue : s.walker.queue ++ nextPost [] = s.walker.queue := List.append_nil _
  rw [failPosting_eq hpost, hqueue]
  exact offers_settle (p := s.port) (e := { s with
    pool := { s.pool with map := w.marked.foldl (fun m b => m.set b .held) s.pool.map }
    walker := { s.walker with walk := none }
    post := [] }) _ ⟨hr, .inr hq, ho⟩

/-! ## The head of a posted message (R39, R173, R174) -/

theorem field_zero (v : Word) (k : Nat) : field v 0 k = v.toNat % 2 ^ k := by
  unfold field
  rw [BitVec.extractLsb'_toNat, Nat.shiftRight_zero]

theorem postHeadReadDone_eq {w1 : Walk} {v : Word} (h : w1 = { w with words := w.words ++ [v] }) : postHeadReadDone w v s =
    if w1.words.length < 14 then
      updWalker (fun k => { k with walk := k.walk.map (fun x => { x with words := w1.words }) }) s
    else if headCheck w1 ≠ 0 then failPosting w1 (headCheck w1) s
    else pumpWalker (atTodo { w1 with serial := s.office.serial } s.walker.offered (postHeadWrites s w1 s.office.serial) s.port
      { s with office := { s.office with serial := s.office.serial + 1 } }) := by
  subst h
  rfl

theorem headCheck_sound (hc : (w.head 3).toNat % 8 ≤ 3) (h1 : 1 ≤ w.destCount) (h8 : w.destCount ≤ 8)
    (hd : (w.head 3).getLsbD 14 = true → ∀ v ∈ w.dests, v.toNat ≤ 23) : headCheck w = 0 := by
  unfold headCheck
  rw [field_zero, if_neg (by omega), if_neg (by omega), if_neg]
  rintro ⟨hdir, hany⟩
  obtain ⟨v, hv, hlt⟩ := List.any_eq_true.1 hany
  exact absurd (hd hdir v hv) (by simpa using hlt)

theorem headCheck_fails {reason : Nat} (h : (3 < (w.head 3).toNat % 8 ∧ reason = 4) ∨
    ((w.head 3).toNat % 8 ≤ 3 ∧ (w.destCount = 0 ∨ 8 < w.destCount) ∧ reason = 5) ∨
    ((w.head 3).toNat % 8 ≤ 3 ∧ 1 ≤ w.destCount ∧ w.destCount ≤ 8 ∧ (w.head 3).getLsbD 14 = true ∧
      (∃ v ∈ w.dests, 23 < v.toNat) ∧ reason = 6)) : headCheck w = reason ∧ reason ≠ 0 := by
  unfold headCheck
  rw [field_zero]
  rcases h with ⟨hc, rfl⟩ | ⟨hc, hcount, rfl⟩ | ⟨hc, h1, h8, hd, ⟨v, hv, hlt⟩, rfl⟩
  · exact ⟨if_pos hc, by decide⟩
  · exact ⟨by rw [if_neg (by omega), if_pos hcount], by decide⟩
  · refine ⟨?_, by decide⟩
    rw [if_neg (by omega), if_neg (by omega), if_pos ⟨hd, List.any_eq_true.2 ⟨v, hv, by simpa using hlt⟩⟩]

theorem headWord2_plain (k : Nat) : headWord2 k 0 = 0#8 ++ BitVec.ofNat 8 k := by
  refine BitVec.eq_of_toNat_eq ?_
  rw [toNat_append_eq]
  simp [headWord2]
  omega

theorem headWord6_plain (v : Word) : headWord6 (field v 0 8) 0 = 0#8 ++ v.extractLsb' 0 8 := by
  refine BitVec.eq_of_toNat_eq ?_
  rw [toNat_append_eq, field_zero]
  simp [headWord6]
  omega

theorem headWord3_posted (v : Word) (auto dir : Bool) :
    headWord3 (field v 0 3) 31 false false false false false auto dir =
      0#1 ++ BitVec.ofBool dir ++ BitVec.ofBool auto ++ 0#5 ++ 31#5 ++ v.extractLsb' 0 3 := by
  refine BitVec.eq_of_toNat_eq ?_
  have ha := auto.toNat_le
  have hd := dir.toNat_le
  simp only [toNat_append_eq, headWord3, bit_eq, field_zero, BitVec.toNat_ofNat, BitVec.extractLsb'_toNat,
    Nat.shiftRight_zero, BitVec.toNat_ofBool, Bool.toNat_false]
  omega

theorem time16_eq (v : BitVec 32) : time16 v = v.extractLsb' 0 16 := BitVec.eq_of_toNat_eq (by simp [time16])

end Sys2Proof.Machine

namespace Sys2Proof.Walks
open Sys2Proof.Machine

/-- Settles O21: NONE, a block that is HELD, and the three failures. -/
theorem postingLinkReadCompletion : Obligations.PostingLinkReadCompletion := by
  rintro s a v w hr ho hw hserve rfl
  have hexec : exec .postingLinkReadCompletion s = .next (settle (postLinkDone w (s.store.readWord a) (ended s))) :=
    walkCompletion_read (p := (· == .postLink)) hserve rfl hw
  rw [hexec]
  refine ⟨fun hv hl hroom => ?_, fun hv hb hm hh hl hroom => ?_, fun reason p rest u hv hpost hfail hu => ?_⟩
  · have hbody : postLinkDone w (s.store.readWord a) (ended s) =
        pumpWalker (atTodo w s.walker.offered (postHeadReads s w.req.first) (ended s).port (ended s)) := if_pos hv
    obtain ⟨hpart, hreq⟩ := settle_walkPlaced (s := ended s) (w := w) (o := s.walker.offered)
      (rs := postHeadReads s w.req.first) hr ho hl (by simp [postHeadReads]) (by simp [postHeadReads, readReq])
      (by rw [postHeadReads_length]; exact hroom)
    rw [← hbody] at hpart hreq
    exact ⟨_, rfl, hpart.walker, hreq, congrArg
      (fun x : State => { x with walker := s.walker, port := s.port, report := s.report }) hpart⟩
  · have hbody : postLinkDone w (s.store.readWord a) (ended s) = _ :=
      (if_neg hv).trans (reachPosting_marks (s := ended s) hb hm hh)
    obtain ⟨hpart, hreq⟩ := settle_walkPlaced (s := setBlock (s.store.readWord a).toNat .owned (ended s))
      (w := { w with block := (s.store.readWord a).toNat, marked := w.marked ++ [(s.store.readWord a).toNat] })
      (o := s.walker.offered) (rs := [linkRead s (s.store.readWord a).toNat .postLink]) hr ho hl (by simp)
      (by simp [linkRead, readReq]) hroom
    rw [hbody]
    exact ⟨_, rfl, hpart.pool, hpart.walker, hreq, hpart.others rfl⟩
  · have hbody : postLinkDone w (s.store.readWord a) (ended s) = failPosting w reason (ended s) :=
      (if_neg hv).trans (reachPosting_fails (s := ended s) hfail)
    rw [hbody]
    refine ⟨by rw [failPosting_eq (s := ended s) hpost, hu]; rfl, fun hrest hqueue => ⟨_, rfl, ?_⟩⟩
    exact settle_failPosting (s := ended s) (hpost.trans (by rw [hrest])) hr ho hqueue

/-- Settles O22: the word is kept; the fourteenth has the head checked, and accepted or refused. -/
theorem postingHeadReadCompletion : Obligations.PostingHeadReadCompletion := by
  rintro s a w w1 hr ho hw hserve hw1
  have hexec : exec .postingHeadReadCompletion s = .next (settle (postHeadReadDone w (s.store.readWord a) (ended s))) :=
    walkCompletion_read (p := (· == .postHeadRead)) hserve rfl hw
  have hmarked : w1.marked = w.marked := by rw [hw1]
  have hreq : w1.req = w.req := by rw [hw1]
  rw [hexec]
  rw [postHeadReadDone_eq hw1]
  refine ⟨fun hlen => ?_, fun hlen hc h1 h8 hd hl hroom => ?_, fun reason p rest u hlen hpost hfail hu => ?_⟩
  · have hwords : (ended s).walker.walk.map (fun x => { x with words := w1.words }) = some w1 := by
      rw [show (ended s).walker.walk = some w from hw, hw1]
      rfl
    have hkeep : updWalker (fun k => { k with walk := k.walk.map (fun x => { x with words := w1.words }) }) (ended s) =
        { ended s with walker := { s.walker with walk := some w1 } } :=
      congrArg (fun k => { ended s with walker := { s.walker with walk := k } }) hwords
    have hq : Quiet { ended s with walker := { s.walker with walk := some w1 } } := ⟨hr, .inl (Option.some_ne_none _), ho⟩
    rw [if_pos hlen, hkeep, settle_quiet hq]
  · rw [if_neg (by omega), if_neg (not_not.2 (headCheck_sound hc h1 h8 hd))]
    obtain ⟨hpart, hrequests⟩ := settle_walkPlaced
      (s := { ended s with office := { s.office with serial := s.office.serial + 1 } })
      (w := { w1 with serial := s.office.serial }) (o := s.walker.offered)
      (rs := postHeadWrites (ended s) w1 s.office.serial) hr ho hl (by simp [postHeadWrites])
      (by simp [postHeadWrites, wordReq]) hroom
    refine ⟨_, rfl, hpart.office, hpart.walker, hrequests.trans ?_, congrArg (fun x : State => { x with
      office := s.office, walker := s.walker, port := s.port, report := s.report }) hpart⟩
    unfold postHeadWrites
    rw [Walk.destCount, headWord2_plain, headWord6_plain, show Config.officeLine = 31 from rfl, headWord3_posted, time16_eq,
      hmarked, hreq]
    rfl
  · obtain ⟨hcheck, hne⟩ := headCheck_fails hfail
    rw [if_neg (by omega), if_pos (by rw [hcheck]; exact hne), hcheck, ← hreq]
    rw [← hreq, ← hmarked] at hu
    rw [← hmarked]
    refine ⟨by rw [failPosting_eq (s := ended s) hpost, hu]; rfl, fun hrest hqueue => ⟨_, rfl, ?_⟩⟩
    exact settle_failPosting (s := ended s) (hpost.trans (by rw [hrest])) hr ho hqueue

/-- Settles O23: the message is routed before the post queue goes on. -/
theorem postingHeadWriteCompletion : Obligations.PostingHeadWriteCompletion := by
  intro s u a v p rest w hr hw hpost hserve hu
  have hexec : exec .postingHeadWriteCompletion s =
      .next (settle (postingDone w (writtenBy (wordReq a v .walker (.postHeadWrite true)) s))) :=
    walkCompletion_write (p := (· == .postHeadWrite true)) (f := fun w _ s => postingDone w s) hserve rfl rfl hw
  have hroute : u = routeMessage (postedRecord w) (clearWalk (writtenBy (wordReq a v .walker (.postHeadWrite true)) s)) := by
    rw [hu, postedRecord, field_zero]
    rfl
  have hkept : u.post = p :: rest := by
    rw [hu]
    exact routeMessage_post hpost
  rw [hexec, postingDone, ← hroute, postEnded_eq hkept]

end Sys2Proof.Walks

/-! SUPPORT. Counted walks: what they do with the blocks they reach, and how they end; and a block that is given back. -/

namespace Sys2Proof.Machine

variable {s e t : State} {n : LineNo} {w : Walk}

/-- A change of the Store Port is left open by `SamePart`. -/
theorem SamePart.of_port {p : StorePort} (h : SamePart { e with port := p } t) : SamePart e t := by
  have hpart : { t with port := p, report := e.report } = { e with port := p } := h
  exact congrArg (fun x : State => { x with port := e.port }) hpart

/-! ## A returned block (R26) -/

theorem walkRequestPlaced_link {r : Req} (h : r.purpose = .freeLink) : walkRequestPlaced r s =
    { s with walker := { s.walker with offered := none, links := s.walker.links.tail } } :=
  congrArg (fun k => { s with walker := k }) (if_pos h)

/-- The one link write that stands is placed, where the walk has nothing to place (R23, R32). -/
theorem pumpWalker_link {l : LinkWrite} (hl : s.walker.links = [l]) (hw : ∀ k, s.walker.walk = some k → k.todo = [])
    (hp : PortRoom 1 s.port) : pumpWalker s =
      { s with
        port := placedPort (wordReq (blockWord s l.target 0) (blockNumber l.value) .walker .freeLink) s.port
        walker := { s.walker with links := [], offered := none } } := by
  have hnext : nextWalkRequest s = some (wordReq (blockWord s l.target 0) (blockNumber l.value) .walker .freeLink) := by
    unfold nextWalkRequest
    rw [hl]
  have hplaced : walkRequestPlaced (wordReq (blockWord s l.target 0) (blockNumber l.value) .walker .freeLink)
      (place (wordReq (blockWord s l.target 0) (blockNumber l.value) .walker .freeLink) s) =
      { s with
        port := placedPort (wordReq (blockWord s l.target 0) (blockNumber l.value) .walker .freeLink) s.port
        walker := { s.walker with links := [], offered := none } } := by
    rw [place_port, walkRequestPlaced_link rfl]
    simp only [hl, List.tail_cons]
  have hrest : nextWalkRequest { s with
        port := placedPort (wordReq (blockWord s l.target 0) (blockNumber l.value) .walker .freeLink) s.port
        walker := { s.walker with links := [], offered := none } } = none := by
    show (match s.walker.walk with | some w => w.todo.head? | none => none) = none
    cases hk : s.walker.walk with
    | none => rfl
    | some k =>
      show k.todo.head? = none
      rw [hw k hk]
      rfl
  have hwait : ¬ s.port.waiting.contains .walker = true := by simp [hp.1]
  unfold pumpWalker
  rw [show pumpFuel = Config.queuePlaces + 1 + 1 from rfl, pumpWalkerRounds, if_neg hwait, hnext]
  dsimp only
  rw [if_pos (admits_of_room hp), hplaced, pumpWalkerRounds]
  split
  · rfl
  · rw [hrest]

/-- With no receiver starved and no block FREE a returned block is the whole free list. -/
theorem returnBlock_first {b : Nat} (hs : s.pool.starved = []) (hf : s.pool.free = []) : returnBlock b s =
    { s with pool := { s.pool with map := s.pool.map.set b .free, free := [b] } } := by
  unfold returnBlock
  rw [hs]
  dsimp only
  unfold joinFree
  rw [hf]
  simp only [List.getLast?_nil, setBlock, updPool, hf, List.nil_append]

/-- With no receiver starved a block that is returned has the tail before it linked to it (R23, R26). -/
theorem returnBlock_linked {b x : Nat} (hs : s.pool.starved = []) (hx : s.pool.free.getLast? = some x) : returnBlock b s =
    pumpWalker { s with
      pool := { s.pool with map := s.pool.map.set b .free, free := s.pool.free ++ [b] }
      walker := { s.walker with links := s.walker.links ++ [⟨x, b⟩] } } := by
  unfold returnBlock
  rw [hs]
  dsimp only
  unfold joinFree
  rw [hx]
  rfl

/-! ## Counted walks (R34 to R37) -/

theorem actOn_handOver (h : w.req.kind = .handOver) : actOn w s = setBlock w.block .held s := if_pos h

theorem actOn_returns (h : w.req.kind ≠ .handOver) : actOn w s = returnBlock w.block s := if_neg h

/-- The last link read of a chain: it names no block of the pool (R34). -/
theorem linkReadDone_ends {v : Word} (h : s.office.held.poolBlocks ≤ v.toNat) :
    linkReadDone w v s = endCounted { w with acted := w.acted + 1 } (actOn w s) := by
  unfold linkReadDone actCounted
  dsimp only
  rw [if_pos h]

/-- The walk with the block of the link that was read. -/
def nextBlock (w : Walk) (b : Nat) : Walk := { w with acted := w.acted + 1, block := b }

/-- The walk goes on to the block of the link (R34). -/
theorem linkReadDone_goes {v : Word} (h : v.toNat < s.office.held.poolBlocks) :
    linkReadDone w v s = reachCounted (nextBlock w v.toNat)
      (updWalker (fun k => { k with walk := some (nextBlock w v.toNat) }) (actOn w s)) := by
  unfold linkReadDone actCounted
  dsimp only
  rw [if_neg (Nat.not_le.2 h)]
  rfl

theorem reachCounted_last (h : blockState s w.block = some .owned) (hc : w.acted + 1 = w.req.count) :
    reachCounted w s = endCounted { w with acted := w.acted + 1 } (actOn w s) := by
  unfold reachCounted
  rw [if_neg (by simp [h]), if_neg (by omega)]
  rfl

theorem reachCounted_reads (h : blockState s w.block = some .owned) (hc : w.acted + 1 < w.req.count) :
    reachCounted w s = pumpWalker (updWalker (fun k => { k with
      walk := some { w with todo := w.todo ++ [linkRead s w.block .walkLink] } }) s) := by
  unfold reachCounted
  rw [if_neg (by simp [h]), if_pos hc]

theorem endCounted_abandons (h : w.req.kind = .abandon) : endCounted w s = offerReport
    (plainReport .messageAbandoned w.req.origin (BitVec.ofNat 16 w.req.first) (BitVec.ofNat 16 w.acted) s.office.clock)
    { s with walker := { s.walker with walk := none } } := by
  unfold endCounted
  dsimp only
  rw [h]
  rfl

theorem endCounted_holds (h : w.req.kind = .handOver) (hr : w.req.reason ≠ 0) : endCounted w s = offerReport
    (plainReport .messageHeld w.req.origin (BitVec.ofNat 16 w.req.first) (BitVec.ofNat 16 w.req.reason) s.office.clock)
    { s with walker := { s.walker with walk := none } } := by
  unfold endCounted
  dsimp only
  rw [h]
  dsimp only
  rw [if_neg hr]
  rfl

theorem endCounted_returns {k : TransitNo} (h : w.req.kind = .handOver) (hr : w.req.reason = 0)
    (hk : w.req.transit = some k) : endCounted w s = offerReport
    (plainReport .messageReturned w.req.origin (BitVec.ofNat 16 w.req.first) (BitVec.ofNat 16 w.acted) s.office.clock)
    { s with
      walker := { s.walker with walk := none }
      du := { s.du with transit := s.du.transit.set k { s.du.transit[k] with state := .free } } } := by
  unfold endCounted
  dsimp only
  rw [h]
  dsimp only
  rw [if_pos hr, hk]
  rfl

theorem endCounted_releases {k : TransitNo} (h : w.req.kind = .release) (hk : w.req.transit = some k) :
    endCounted w s = offerReport
    (plainReport .messageReleased w.req.origin (BitVec.ofNat 16 w.req.first) (BitVec.ofNat 16 w.acted) s.office.clock)
    { s with
      walker := { s.walker with walk := none }
      du := { s.du with transit := s.du.transit.set k { s.du.transit[k] with state := .free } } } := by
  unfold endCounted
  dsimp only
  rw [h]
  dsimp only
  rw [hk]
  rfl

/-- A block stays as it was where another is marked. -/
theorem getElem?_set_away {m : List BlockState} {b c : Nat} {v x : BlockState} (h : m[c]? = some x) (hne : c ≠ b) :
    (m.set b v)[c]? = some x := by
  rw [List.getElem?_set_ne (Ne.symm hne)]
  exact h

/-- The end of a walk that returns its blocks. -/
theorem endCounted_returned {kind : ReportKind} {transit : Vector Transit 128}
    (h : (w.req.kind = .abandon ∧ kind = .messageAbandoned ∧ transit = s.du.transit) ∨
      (w.req.kind = .release ∧ kind = .messageReleased ∧ ∃ k : TransitNo, w.req.transit = some k ∧
        transit = s.du.transit.set k { s.du.transit[k] with state := .free })) : endCounted w s = offerReport
    (plainReport kind w.req.origin (BitVec.ofNat 16 w.req.first) (BitVec.ofNat 16 w.acted) s.office.clock)
    { s with walker := { s.walker with walk := none }, du := { s.du with transit := transit } } := by
  rcases h with ⟨hk, rfl, rfl⟩ | ⟨hk, rfl, k, htr, rfl⟩
  · exact endCounted_abandons hk
  · exact endCounted_releases hk htr

/-- The last two blocks of a chain go back to an empty free list at one event: the link write into the first of them stands
before the words of the report (R23, R26, R34). -/
theorem settle_lastReturned {b : Nat} {v : Word} {kind : ReportKind} {transit : Vector Transit 128} {u : State}
    (hu : u = updWalker (fun k => { k with walk := some (nextBlock w v.toNat) })
      { s with pool := { s.pool with map := s.pool.map.set b .free, free := [b] } })
    (hr : s.resetIn = false) (ho : s.report.offers = []) (hq : s.walker.queue = []) (htodo : w.todo = [])
    (hl : s.walker.links = []) (hs : s.pool.starved = []) (hroom : PortRoom 5 s.port) (hring : RingRoom 1 s)
    (hne : w.req.kind ≠ .handOver) (hown : blockState s v.toNat = some .owned) (hb : v.toNat ≠ b)
    (hcount : w.acted + 2 = w.req.count)
    (hkind : (w.req.kind = .abandon ∧ kind = .messageAbandoned ∧ transit = s.du.transit) ∨
      (w.req.kind = .release ∧ kind = .messageReleased ∧ ∃ k : TransitNo, w.req.transit = some k ∧
        transit = s.du.transit.set k { s.du.transit[k] with state := .free })) :
    SamePart { s with
        pool := { s.pool with map := (s.pool.map.set b .free).set v.toNat .free, free := [b, v.toNat] }
        walker := { s.walker with walk := none, offered := none }
        du := { s.du with transit := transit } } (settle (reachCounted (nextBlock w v.toNat) u)) ∧
      (settle (reachCounted (nextBlock w v.toNat) u)).report.fill = s.report.fill + 1 ∧
      requests (settle (reachCounted (nextBlock w v.toNat) u)) = requests s ++
        wordReq (blockWord s b 0) v .walker .freeLink ::
          reportWords s s.report.fill (plainReport kind w.req.origin (BitVec.ofNat 16 w.req.first)
            (BitVec.ofNat 16 w.req.count) s.office.clock) := by
  obtain ⟨p, hp⟩ : ∃ p, p = placedPort (wordReq (blockWord s b 0) v .walker .freeLink) s.port := ⟨_, rfl⟩
  have hplaced : PortRoom 4 p := hp ▸ hroom.placed (k := 4) _
  obtain ⟨e, he⟩ : ∃ e : State, e = { s with
      pool := { s.pool with map := (s.pool.map.set b .free).set v.toNat .free, free := [b, v.toNat] }
      walker := { s.walker with walk := none, offered := none }
      du := { s.du with transit := transit } } := ⟨_, rfl⟩
  have hreturn : actOn (nextBlock w v.toNat) u = { s with
      port := p
      pool := { s.pool with map := (s.pool.map.set b .free).set v.toNat .free, free := [b, v.toNat] }
      walker := { s.walker with walk := some (nextBlock w v.toNat), offered := none } } := by
    have hvalue : blockNumber v.toNat = v := BitVec.ofNat_toNat _ _ |>.trans (BitVec.setWidth_eq v)
    rw [actOn_returns (w := nextBlock w v.toNat) (by exact hne), returnBlock_linked (s := u) (x := b) (by rw [hu]; exact hs)
      (by rw [hu]; rfl)]
    refine (pumpWalker_link (l := ⟨b, v.toNat⟩) ?_ (fun k hk => ?_) ?_).trans ?_
    · show u.walker.links ++ _ = _
      rw [hu]
      show s.walker.links ++ _ = _
      rw [hl]
      rfl
    · rw [hu] at hk
      rw [← Option.some.inj hk]
      exact htodo
    · show PortRoom 1 u.port
      rw [hu]
      exact hroom.mono (by decide)
    · rw [hvalue, hp, hu, ← hl]
      rfl
  have hbody : reachCounted (nextBlock w v.toNat) u = offerReport (plainReport kind w.req.origin (BitVec.ofNat 16 w.req.first)
      (BitVec.ofNat 16 w.req.count) s.office.clock) { e with port := p } := by
    rw [reachCounted_last (by rw [hu]; exact getElem?_set_away hown hb) hcount, hreturn,
      endCounted_returned (kind := kind) (transit := transit) (by exact hkind), he, ← hcount]
    rfl
  have hquiet : Quiet { e with port := p } := by
    rw [he]
    exact ⟨hr, .inr hq, ho⟩
  have hsettle := settle_offerReport (r := plainReport kind w.req.origin (BitVec.ofNat 16 w.req.first)
      (BitVec.ofNat 16 w.req.count) s.office.clock) hquiet
  rw [takeReport_room (s := { e with port := p }) (by rw [he]; exact hring) hplaced] at hsettle
  rw [hbody, hsettle, ← he]
  refine ⟨?_, ?_, ?_⟩
  · exact (congrArg (fun x : State => { x with port := e.port, report := e.report }) (samePart_eventEnd _) :)
  · rw [eventEnd_eq, he]
  · rw [requests_eventEnd]
    refine (portRequests_placedAll _ _).trans ?_
    rw [hp, he]
    show portRequests (placedPort _ s.port) ++ _ = _
    rw [portRequests_placed, List.append_assoc]
    rfl

end Sys2Proof.Machine

namespace Sys2Proof.Walks
open Sys2Proof.Machine

section
variable {s : State} {a : Addr} {v : Word} {w : Walk}

/-- The link read of a walk that ends with the block it stands on. -/
theorem exec_linkRead (hw : s.walker.walk = some w) (hserve : Serving (readReq a .walker .walkLink) s) :
    exec .linkReadCompletion s = .next (settle (linkReadDone w (s.store.readWord a) (ended s))) :=
  walkCompletion_read (p := (· == .walkLink)) hserve rfl hw

end

/-- Settles O20: the link reads by what the link names, and the head write of a hand-over walk. -/
theorem countedWalks : Obligations.CountedWalks := by
  refine ⟨?_, ?_⟩
  · rintro s a v w hr ho hw hserve rfl
    rw [exec_linkRead hw hserve]
    have hfirst : s.pool.starved = [] → s.pool.free = [] → w.req.kind ≠ .handOver → actOn w (ended s) =
        { ended s with pool := { s.pool with map := s.pool.map.set w.block .free, free := [w.block] } } := fun hs hf hk =>
      (actOn_returns hk).trans (returnBlock_first (s := ended s) hs hf)
    refine ⟨fun hk htodo hv hne hown hcount hl hroom => ?_, fun k hk htr hv hs hf hq => ⟨_, rfl, ?_⟩,
      fun hk hv hs hf hq => ⟨_, rfl, ?_⟩, fun hv hne hown hcount hq => ⟨fun hk hreason => ⟨_, rfl, ?_⟩,
        fun k hk hreason htr => ⟨_, rfl, ?_⟩, fun kind transit htodo hl hs hf hroom hring hkind => ⟨_, rfl, ?_⟩⟩⟩
    · rw [linkReadDone_goes (s := ended s) hv, actOn_handOver hk, reachCounted_reads
        (w := nextBlock w (s.store.readWord a).toNat) (by exact getElem?_set_away hown hne) hcount]
      obtain ⟨hpart, hreq⟩ := settle_walkPlaced (s := setBlock w.block .held (ended s))
        (w := nextBlock w (s.store.readWord a).toNat) (o := s.walker.offered)
        (rs := w.todo ++ [linkRead s (s.store.readWord a).toNat .walkLink]) hr ho hl (by simp)
        (by simp [htodo, linkRead, readReq]) (by rw [htodo]; exact hroom)
      refine ⟨_, rfl, hpart.pool, ?_, ?_, hpart.others rfl⟩
      · refine hpart.walker.trans ?_
        rw [← htodo]
        rfl
      · refine hreq.trans ?_
        rw [htodo]
        rfl
    · have hne : w.req.kind ≠ .handOver := by rw [hk]; exact WalkKind.noConfusion
      rw [linkReadDone_ends (s := ended s) hv, hfirst hs hf hne,
        endCounted_releases (w := { w with acted := w.acted + 1 }) hk htr]
      exact offers_settle (p := (ended s).port) _ ⟨hr, .inr hq, ho⟩
    · have hne : w.req.kind ≠ .handOver := by rw [hk]; exact WalkKind.noConfusion
      rw [linkReadDone_ends (s := ended s) hv, hfirst hs hf hne,
        endCounted_abandons (w := { w with acted := w.acted + 1 }) hk]
      exact offers_settle (p := (ended s).port) _ ⟨hr, .inr hq, ho⟩
    · rw [linkReadDone_goes (s := ended s) hv, actOn_handOver hk, reachCounted_last
        (w := nextBlock w (s.store.readWord a).toNat) (by exact getElem?_set_away hown hne) hcount, actOn_handOver (by exact hk),
        endCounted_holds (by exact hk) (by exact hreason)]
      exact offers_settle (p := (ended s).port) _ ⟨hr, .inr hq, ho⟩
    · rw [linkReadDone_goes (s := ended s) hv, actOn_handOver hk, reachCounted_last
        (w := nextBlock w (s.store.readWord a).toNat) (by exact getElem?_set_away hown hne) hcount, actOn_handOver (by exact hk),
        endCounted_returns (by exact hk) (by exact hreason) (by exact htr), ← hcount]
      exact offers_settle (p := (ended s).port) _ ⟨hr, .inr hq, ho⟩
    · have hkeeps : w.req.kind ≠ .handOver := by
        rcases hkind with ⟨hk, -⟩ | ⟨hk, -⟩ <;> rw [hk] <;> exact WalkKind.noConfusion
      rw [linkReadDone_goes (s := ended s) hv, hfirst hs hf hkeeps]
      obtain ⟨hpart, hfill, hreq⟩ :=
        settle_lastReturned (s := ended s) rfl hr ho hq htodo hl hs hroom hring hkeeps hown hne hcount hkind
      exact ⟨hpart.of_port (p := (ended s).port), hfill, hreq⟩
  · intro s a b w hr ho hw hserve
    have hexec : exec .handOverHeadWriteCompletion s =
        .next (settle (handOverHeadDone w (writtenBy (byteReq a true b .walker .handOverHead) s))) :=
      walkCompletion_write (p := (· == .handOverHead)) (f := fun w _ s => handOverHeadDone w s) hserve rfl rfl hw
    rw [hexec]
    have hdone : w.req.count ≤ 1 → w.req.kind = .handOver →
        handOverHeadDone w (writtenBy (byteReq a true b .walker .handOverHead) s) =
          endCounted { w with acted := w.acted + 1 }
            (setBlock w.block .held (writtenBy (byteReq a true b .walker .handOverHead) s)) := fun hc hk =>
      (if_pos hc).trans (congrArg (endCounted { w with acted := w.acted + 1 }) (actOn_handOver hk))
    refine ⟨fun hc hk hreason hq => ⟨_, rfl, ?_⟩, fun k hc hk hreason htr hacted hq => ⟨_, rfl, ?_⟩, fun hc => ?_⟩
    · rw [hdone hc hk, endCounted_holds (by exact hk) (by exact hreason)]
      exact offers_settle (p := (ended s).port) _ ⟨hr, .inr hq, ho⟩
    · rw [hdone hc hk, endCounted_returns (by exact hk) (by exact hreason) (by exact htr), hacted]
      exact offers_settle (p := (ended s).port) _ ⟨hr, .inr hq, ho⟩
    · have hkeep : handOverHeadDone w (writtenBy (byteReq a true b .walker .handOverHead) s) =
          writtenBy (byteReq a true b .walker .handOverHead) s := if_neg (Nat.not_le.2 hc)
      have hq : Quiet (writtenBy (byteReq a true b .walker .handOverHead) s) :=
        ⟨hr, .inl (by show s.walker.walk ≠ none; rw [hw]; exact Option.some_ne_none _), ho⟩
      rw [hkeep, settle_quiet hq]
      rfl

end Sys2Proof.Walks

/-! SUPPORT. The return word, and a plain internal write as it completes. -/

namespace Sys2Proof.Machine

variable {s e t : State} {n : LineNo} {w : Walk}

/-! ## What the Chain Walker's placements leave as it is -/

/-- `u` differs from `s` in the Store Port and in the walker's offers alone, and has the same access with the Store Port. -/
structure WalkerPumped (s u : State) : Prop where
  others : { u with port := s.port, walker := s.walker } = s
  queue : u.walker.queue = s.walker.queue
  walk : u.walker.walk = none ↔ s.walker.walk = none
  forwards : ∀ a, Forwards a u ↔ Forwards a s

theorem WalkerPumped.trans {u : State} (h : WalkerPumped s u) (k : WalkerPumped u t) : WalkerPumped s t where
  others := (congrArg (fun x : State => { x with port := s.port, walker := s.walker }) k.others :).trans h.others
  queue := k.queue.trans h.queue
  walk := k.walk.trans h.walk
  forwards a := (k.forwards a).trans (h.forwards a)

theorem walkerPumped_pump (s : State) : WalkerPumped s (pumpWalker s) := by
  unfold pumpWalker
  induction pumpFuel generalizing s with
  | zero => exact ⟨rfl, rfl, Iff.rfl, fun _ => Iff.rfl⟩
  | succ k ih =>
    unfold pumpWalkerRounds
    split
    · exact ⟨rfl, rfl, Iff.rfl, fun _ => Iff.rfl⟩
    · split
      · exact ⟨rfl, rfl, Iff.rfl, fun _ => Iff.rfl⟩
      · next r _ =>
        split
        · refine WalkerPumped.trans ⟨?_, ?_, ?_, fun a => ?_⟩ (ih _)
          · rw [place_port]
            unfold walkRequestPlaced updWalker
            rfl
          · rw [place_port]
            unfold walkRequestPlaced updWalker
            dsimp only
            split <;> rfl
          · rw [place_port]
            unfold walkRequestPlaced updWalker
            dsimp only
            split
            · exact Iff.rfl
            · exact Option.map_eq_none_iff
          · exact forwards_place a r s
        · rw [waitFor_port]
          refine ⟨rfl, rfl, Iff.rfl, fun a => ?_⟩
          unfold waitingPort
          split <;> exact Iff.rfl

theorem WalkerPumped.quiet (h : WalkerPumped s t) (hq : Quiet s) : Quiet t := by
  have hr : t.resetIn = s.resetIn := (congrArg State.resetIn h.others :)
  have ho : t.report = s.report := (congrArg State.report h.others :)
  exact ⟨hr.trans hq.1, hq.2.1.imp (fun hw ht => hw (h.walk.1 ht)) (fun hw => h.queue.trans hw), by rw [ho]; exact hq.2.2⟩

/-- While the walker waits it only keeps its link write (R32). -/
theorem pumpWalker_waiting (h : Issuer.walker ∈ s.port.waiting) : pumpWalker s = s := by
  unfold pumpWalker
  rw [show pumpFuel = Config.queuePlaces + 1 + 1 from rfl, pumpWalkerRounds, if_pos (by simpa using h)]

/-! ## A block given to a starved receiver (R26, R67, R68) -/

/-- The receiver with block `b` as its current block. -/
def blockedRx (b : Nat) (r : Receiver) : Receiver :=
  { r with asm := { r.asm with current := some b, blockCount := r.asm.blockCount + 1, first := some (r.asm.first.getD b) } }

theorem rxContinue_rests {k : Nat} (h : rxWork n s = none) : rxContinue k n s = s := by
  cases k with
  | zero => rfl
  | succ k =>
    unfold rxContinue
    rw [h]

/-- A receiver with no request unplaced, no byte awaiting and no message closed has nothing to do. -/
theorem rxWork_none (ha : s.lines[n.val].rx.asm.awaiting = []) (hc : s.lines[n.val].rx.state ≠ .closing) : rxWork n s = none := by
  unfold rxWork
  dsimp only
  split
  · rfl
  · simp only [Fin.getElem_fin, ha]
    rw [if_neg (fun h => hc h.1)]

/-- With room a receiver's request that closes no message is placed at once. -/
theorem rxOffer_room {r : Req} (hp : PortRoom 1 s.port) (hr : r.purpose ≠ .rxClose true) : rxOffer n r s =
    { s with port := placedPort r s.port } := by
  unfold rxOffer rxPlaced
  rw [if_pos (admits_of_room hp), if_neg hr, place_port]

/-- A further block of a chain is linked to the block before it. -/
theorem assignBlock_linked {b p : Nat} (hc : s.lines[n.val].rx.asm.current = some p) (hp : PortRoom 1 s.port) :
    assignBlock n b s = { updRx n (blockedRx b) s with
      port := placedPort (wordReq (blockWord s p 0) (blockNumber b) (.receiver n) .rxLink) s.port } := by
  unfold assignBlock
  simp only [Fin.getElem_fin, hc]
  exact rxOffer_room (s := updRx n (blockedRx b) s) hp Purpose.noConfusion

/-- A starved receiver in TEXT is given a block and has then nothing to do. -/
theorem giveBlock_text {b p : Nat} (ha : s.lines[n.val].rx.asm.awaiting = [])
    (hc : s.lines[n.val].rx.asm.current = some p) (ht : s.lines[n.val].rx.state = .text) (hp : PortRoom 1 s.port) :
    giveBlock n b s = { updRx n (blockedRx b) s with
      port := placedPort (wordReq (blockWord s p 0) (blockNumber b) (.receiver n) .rxLink) s.port } := by
  unfold giveBlock
  rw [assignBlock_linked hc hp]
  refine rxContinue_rests (rxWork_none ?_ ?_)
  · show (updRx n (blockedRx b) s).lines[n.val].rx.asm.awaiting = []
    rw [updRx, updLine_line]
    exact ha
  · show (updRx n (blockedRx b) s).lines[n.val].rx.state ≠ .closing
    rw [updRx, updLine_line]
    show s.lines[n.val].rx.state ≠ .closing
    rw [ht]
    exact RxState.noConfusion

/-! ## Abandonments (R81) -/

theorem foldl_askWalk (rs : List WalkRequest) (s : State) : rs.foldl (fun s r => askWalk r s) s =
    { s with walker := { s.walker with queue := s.walker.queue ++ rs } } := by
  induction rs generalizing s with
  | nil =>
    rw [List.append_nil]
    rfl
  | cons r rs ih =>
    rw [List.foldl_cons, ih]
    simp [askWalk, updWalker]

/-- The abandon list gives the requests whose completions have all come, and keeps the others. -/
theorem giveAbandoned_eq {given kept : List Abandonment} (h : splitGiven s.lines[n.val].rx.abandon = (given, kept)) :
    giveAbandoned n s = { updRx n (fun r => { r with abandon := kept }) s with
      walker := { s.walker with queue := s.walker.queue ++ given.map (abandonWalk n) } } := by
  have hsplit : giveAbandoned n s = (splitGiven s.lines[n.val].rx.abandon).1.foldl (fun s a => askWalk (abandonWalk n a) s)
      (updRx n (fun r => { r with abandon := (splitGiven s.lines[n.val].rx.abandon).2 }) s) := rfl
  rw [hsplit, h]
  rw [← List.foldl_map (f := abandonWalk n) (g := fun s r => askWalk r s), foldl_askWalk]
  rfl

/-- A receiver's placed request completes: each abandonment of its list has one fewer to wait for. -/
theorem rxCompleted_eq {given kept : List Abandonment} (h : splitGiven (s.lines[n.val].rx.abandon.map
    (fun a => { a with remaining := a.remaining - 1 })) = (given, kept)) :
    rxCompleted n s = { updRx n (fun r => { r with abandon := kept }) s with
      walker := { s.walker with queue := s.walker.queue ++ given.map (abandonWalk n) } } := by
  unfold rxCompleted
  rw [giveAbandoned_eq (given := given) (kept := kept) (by rw [updRx, updLine_line]; exact h)]
  unfold updRx
  rw [updLine_updLine]
  rfl

theorem rxCompleted_none (h : s.lines[n.val].rx.abandon = []) : rxCompleted n s = s := by
  rw [rxCompleted_eq (given := []) (kept := []) (by rw [h]; rfl), updRx, updLine_self (by rw [← h])]
  show { s with walker := { s.walker with queue := s.walker.queue ++ [] } } = s
  rw [List.append_nil]

theorem finishRequest_receiver {r : Req} (h : r.issuer = .receiver n) :
    finishRequest r s = rxCompleted n { ended s with store := s.store.serve r.addr r.write } := by
  unfold finishRequest
  rw [h]
  rfl

/-! ## The return word (R26, R27) -/

/-- The return word while RUNNING, with what its part makes of the state. -/
theorem exec_returnWord {v : Word} (h : Accessible s) (hrun : running s = true) : exec (.returnWord v .both) s =
    .next (settle (returnWord v (forward (pageWrite s 17 v .both) s))) := by
  rw [exec_pageCommand (c := .returnWord v .both) rfl, writeEvent_page (by decide) v .both h, if_pos rfl,
    snoop_running (s := forward _ s) hrun (by decide) (fun h => absurd h (by decide)) (by decide)]
  rfl

theorem returnWord_held {v : Word} (h : blockState s v.toNat = some .held) : returnWord v s = returnBlock v.toNat s := by
  unfold returnWord
  rw [h]
  rfl

theorem returnWord_refused {v : Word} {cause : Nat} (h : (blockState s v.toNat = some .free ∧ cause = 3) ∨
    (blockState s v.toNat = some .owned ∧ cause = 4) ∨ (blockState s v.toNat = none ∧ cause = 5)) :
    returnWord v s = guardViolation cause v 0 s := by
  unfold returnWord
  rcases h with ⟨h, rfl⟩ | ⟨h, rfl⟩ | ⟨h, rfl⟩ <;> rw [h] <;> rfl

/-- An event whose body ends with what the walker can place. -/
theorem settle_pumpWalker (hq : Quiet s) :
    { settle (pumpWalker s) with port := s.port, walker := s.walker, report := s.report } = s ∧
      (settle (pumpWalker s)).walker = (pumpWalker s).walker ∧
      requests (settle (pumpWalker s)) = requests (pumpWalker s) ∧
      ∀ a, Forwards a (settle (pumpWalker s)) ↔ Forwards a s := by
  have hp := walkerPumped_pump s
  rw [settle_quiet (hp.quiet hq)]
  have hpart := samePart_eventEnd (pumpWalker s)
  refine ⟨?_, hpart.walker, requests_eventEnd _, fun a => (forwards_eventEnd a _).trans (hp.forwards a)⟩
  have hsame : { eventEnd (pumpWalker s) with port := s.port, walker := s.walker, report := s.report } =
      { pumpWalker s with port := s.port, walker := s.walker, report := s.report } :=
    (congrArg (fun x : State => { x with port := s.port, walker := s.walker, report := s.report }) hpart.eq :)
  rw [hsame]
  exact congrArg (fun x : State => { x with report := s.report }) hp.others

/-- An access that waits for the store is with the Store Port after a placement too. -/
theorem forwards_placed {a : Access} {r : Req} {p : StorePort} (h : p.fwd = some a) :
    (placedPort r p).fwd = some a ∨ (placedPort r p).cycle = some (.forwarded a) :=
  (forwards_place a r { State.reset with port := p }).2 (.inl h)

end Sys2Proof.Machine

/-! PROOFS. The statements about the return word and about internal writes. -/

namespace Sys2Proof.Walks
open Sys2Proof.Machine

/-- Settles O18: a HELD block to the free list or to a starved receiver, and the three refusals. -/
theorem returnWord : Obligations.ReturnWord := by
  intro s v h hrun
  rw [exec_returnWord h hrun]
  have hforward : ∀ e : State, Quiet e → ∀ a, Forwards a (settle e) ↔ Forwards a e := fun e he a => by
    rw [settle_quiet he, forwards_eventEnd]
  refine ⟨fun hheld hs => ?_, fun hheld n rest p hs hn ha hc hu ht hroom => ?_, fun cause hcause => ⟨_, rfl, ?_⟩⟩
  · rw [returnWord_held (s := forward _ s) hheld]
    cases hx : s.pool.free.getLast? with
    | none =>
      have hf : s.pool.free = [] := List.getLast?_eq_none_iff.1 hx
      rw [returnBlock_first (s := forward _ s) hs hf]
      obtain ⟨t, ht, hpart, hreq, -⟩ := settle_written (e := { s with
        pool := { s.pool with map := s.pool.map.set v.toNat .free, free := [v.toNat] } })
        (p := { s.port with fwd := some (pageWrite s 17 v .both) }) h.1
      refine ⟨t, congrArg _ ht, ?_, ?_, hpart.others rfl, fun x hx => absurd hx (Option.some_ne_none x).symm,
        fun x hx => absurd hx (Option.some_ne_none x).symm, fun _ => hpart.walker⟩
      · rw [← ht, hforward _ (by exact h.1)]
        exact .inl rfl
      · rw [hf]
        exact hpart.pool
    | some x =>
      rw [returnBlock_linked (s := forward _ s) hs hx]
      obtain ⟨u, hu⟩ : ∃ u : State, u = { forward (pageWrite s 17 v .both) s with
        pool := { s.pool with map := s.pool.map.set v.toNat .free, free := s.pool.free ++ [v.toNat] }
        walker := { s.walker with links := s.walker.links ++ [⟨x, v.toNat⟩] } } := ⟨_, rfl⟩
      have hq : Quiet u := by
        rw [hu]
        exact h.1
      obtain ⟨hothers, hwalker, hreq, hfwd⟩ := settle_pumpWalker hq
      refine ⟨settle (pumpWalker u), by rw [hu]; rfl, (hfwd _).2 (by rw [hu]; exact .inl rfl), ?_, ?_, ?_, ?_, ?_⟩
      · have hpool : (settle (pumpWalker u)).pool = u.pool := (congrArg State.pool hothers :)
        rw [hpool, hu]
      · have hrest : { settle (pumpWalker u) with pool := s.pool, port := s.port, walker := s.walker, report := s.report } =
            { u with pool := s.pool, port := s.port, walker := s.walker, report := s.report } :=
          (congrArg (fun y : State => { y with pool := s.pool, port := s.port, walker := s.walker, report := s.report })
            hothers :)
        rw [hrest, hu]
        rfl
      · intro y hy hl hwalk hroom
        obtain rfl : x = y := Option.some.inj hy
        have hlink := pumpWalker_link (s := u) (l := ⟨x, v.toNat⟩)
          (by rw [hu]; show s.walker.links ++ _ = _; rw [hl]; rfl)
          (fun k hk => by rw [hu] at hk; exact absurd (hwalk.symm.trans hk) (Option.some_ne_none k).symm)
          (by rw [hu]; exact hroom)
        rw [hreq, hwalker, hlink]
        refine ⟨(portRequests_placed _ _).trans ?_, rfl⟩
        rw [hu]
        rfl
      · intro y hy hwait
        obtain rfl : x = y := Option.some.inj hy
        rw [hwalker, pumpWalker_waiting (by rw [hu]; exact hwait), hu]
      · intro hf
        rw [hf] at hx
        exact absurd hx (by simp)
  · have hbody : returnBlock v.toNat (forward (pageWrite s 17 v .both) s) = { updRx n (blockedRx v.toNat) s with
        pool := { s.pool with map := s.pool.map.set v.toNat .owned, starved := rest }
        port := placedPort (wordReq (blockWord s p 0) (BitVec.ofNat 16 v.toNat) (.receiver n) .rxLink)
          { s.port with fwd := some (pageWrite s 17 v .both) } } := by
      unfold returnBlock
      rw [show (forward (pageWrite s 17 v .both) s).pool.starved = n :: rest from hs]
      dsimp only
      rw [giveBlock_text (p := p) (by exact ha) (by exact hc) (by exact ht) (by exact hroom)]
      rfl
    rw [returnWord_held (s := forward _ s) hheld, hbody]
    obtain ⟨t, ht, hpart, hreq, -⟩ := settle_written (e := { updRx n (blockedRx v.toNat) s with
        pool := { s.pool with map := s.pool.map.set v.toNat .owned, starved := rest } })
        (p := placedPort (wordReq (blockWord s p 0) (BitVec.ofNat 16 v.toNat) (.receiver n) .rxLink)
          { s.port with fwd := some (pageWrite s 17 v .both) }) h.1
    have hline : t.lines[n.val].rx = blockedRx v.toNat s.lines[n.val].rx := by
      rw [hpart.lines]
      show (updRx n (blockedRx v.toNat) s).lines[n.val].rx = _
      rw [updRx, updLine_line]
    refine ⟨t, congrArg _ ht, ?_, hpart.pool, ?_, ?_, ?_, hpart.walker, hpart.du, hpart.office⟩
    · rw [← ht, hforward _ (by exact h.1)]
      exact forwards_placed rfl
    · exact hreq.trans (portRequests_placed _ _)
    · rw [Fin.getElem_fin, hline]
      rfl
    · rw [Fin.getElem_fin, hline]
      rfl
  · rw [returnWord_refused (s := forward _ s) hcause]
    exact settle_forward_offerReport _ _ h.1

/-- Settles O13: the store takes the write, and a receiver counts it for its abandonment. -/
theorem internalWriteCompletion : Obligations.InternalWriteCompletion := by
  intro s r w hserve hp hwrite
  have hends : ∀ e, Quiet e → finishRequest r s = e → exec .internalWriteCompletion s = .next (eventEnd e) := fun e he hf =>
    completion_ends (p := plainWrite) (f := fun _ _ s => s) hserve hp hf he
  have hstore : s.store.serve r.addr r.write = s.store.write r.addr w := by rw [hwrite]; rfl
  refine ⟨fun hq hnone => hends _ hq ?_, fun n f k left hr ho hw hi ha => hends _ ⟨hr, .inl hw, ho⟩ ?_⟩
  · by_cases h : ∃ n, r.issuer = .receiver n
    · obtain ⟨n, hi⟩ := h
      rw [finishRequest_receiver hi, rxCompleted_none (by exact hnone n hi), hstore]
    · push Not at h
      rw [finishRequest_plain s h, hstore]
  · rw [finishRequest_receiver hi, hstore]
    cases left with
    | zero =>
      rw [rxCompleted_eq (given := [⟨f, k, 0⟩]) (kept := []) (by
        show splitGiven (s.lines[n.val].rx.abandon.map _) = _
        rw [← Fin.getElem_fin, ha]
        rfl)]
      rfl
    | succ left =>
      rw [rxCompleted_eq (given := []) (kept := [⟨f, k, left + 1⟩]) (by
        show splitGiven (s.lines[n.val].rx.abandon.map _) = _
        rw [← Fin.getElem_fin, ha]
        rfl)]
      rfl

end Sys2Proof.Walks

/-! SUPPORT. A receiver's operations, on a machine whose receiver of one line and whose Store Port are written out. -/

namespace Sys2Proof.Machine

variable {s e t : State} {n : LineNo} {r : Receiver} {p : StorePort}

/-- The machine with the receiver `r` of line `n` and the Store Port `p`. -/
def rxAt (n : LineNo) (r : Receiver) (p : StorePort) (s : State) : State := { updRx n (fun _ => r) s with port := p }

theorem updRx_line (f : Receiver → Receiver) (s : State) :
    (updRx n f s).lines[n.val] = { s.lines[n.val] with rx := f s.lines[n.val].rx } := updLine_line _ _

@[simp] theorem rxAt_line (n : LineNo) (r : Receiver) (p : StorePort) (s : State) :
    (rxAt n r p s).lines[n.val] = { s.lines[n.val] with rx := r } := updRx_line (n := n) (fun _ => r) s

theorem rxAt_self (n : LineNo) (s : State) : rxAt n s.lines[n.val].rx s.port s = s := by
  unfold rxAt updRx
  rw [updLine_self rfl]

theorem updRx_rxAt (f : Receiver → Receiver) : updRx n f (rxAt n r p s) = rxAt n (f r) p s := by
  have hline : (updRx n (fun _ => r) s).lines[n.val].rx = r := by rw [updRx_line]
  show { updRx n f (updRx n (fun _ => r) s) with port := p } = _
  unfold rxAt updRx
  rw [updLine_updLine]

theorem updRx_at (f : Receiver → Receiver) (s : State) : updRx n f s = rxAt n (f s.lines[n.val].rx) s.port s := by
  conv_lhs => rw [← rxAt_self n s]
  rw [updRx_rxAt]

theorem updAsm_rxAt (f : Assembly → Assembly) : updAsm n f (rxAt n r p s) = rxAt n { r with asm := f r.asm } p s :=
  updRx_rxAt _

/-! ## Requests of a receiver (R9, R67) -/

theorem rxOffer_at {q : Req} (hp : PortRoom 1 p) (hq : q.purpose ≠ .rxClose true) :
    rxOffer n q (rxAt n r p s) = rxAt n r (placedPort q p) s := rxOffer_room (s := rxAt n r p s) hp hq

theorem rxOffer_waits {q : Req} (hp : p.waiting ≠ []) :
    rxOffer n q (rxAt n r p s) = rxAt n { r with unplaced := some q } (waitingPort (.receiver n) p) s := by
  unfold rxOffer
  rw [if_neg (by simp [admits_of_waiting (s := rxAt n r p s) hp]), updRx_rxAt, waitFor_port]
  rfl

/-- The byte write at the text position of the assembly `a` (R67). -/
def byteOf (s : State) (n : LineNo) (a : Assembly) (b : Byte) : Req :=
  byteReq (blockWord s (a.current.getD 0) (textWord a.storedLength)) (a.storedLength % 2 == 1) b (.receiver n) .rxByte

/-- The receiver with one more byte stored. -/
def storedRx (r : Receiver) : Receiver := { r with asm := { r.asm with storedLength := r.asm.storedLength + 1 } }

theorem storeByte_at (b : Byte) (hp : PortRoom 1 p) :
    storeByte n b (rxAt n r p s) = rxAt n (storedRx r) (placedPort (byteOf s n r.asm b) p) s := by
  unfold storeByte
  dsimp only
  rw [updAsm_rxAt, rxOffer_at hp Purpose.noConfusion]
  simp only [Fin.getElem_fin, rxAt_line]
  rfl

theorem storeByte_waits (b : Byte) (hp : p.waiting ≠ []) : storeByte n b (rxAt n r p s) =
    rxAt n { storedRx r with unplaced := some (byteOf s n r.asm b) } (waitingPort (.receiver n) p) s := by
  unfold storeByte
  dsimp only
  rw [updAsm_rxAt, rxOffer_waits hp]
  simp only [Fin.getElem_fin, rxAt_line]
  rfl

/-! ## A block for a receiver (R25, R67, R68) -/

/-- The machine with block `b` taken from the head of the free list, no link write having been offered. -/
def takenBlock (b : Nat) (free : List Nat) (s : State) : State :=
  { s with
    pool := { s.pool with map := s.pool.map.set b .owned, free := free }
    walker := { s.walker with links := s.walker.links.filter (fun l => l.target != b) } }

theorem requestBlock_head {b : Nat} {free : List Nat} (hf : s.pool.free = b :: free) (ho : s.walker.offered = none) :
    requestBlock n s = (some b, takenBlock b free s) := by
  unfold requestBlock takeFree dropLinkWrites
  rw [hf]
  dsimp only
  rw [show (setBlock b .owned (updPool (fun p => { p with free := free }) s)).walker.offered = none from ho]
  rfl

theorem requestBlock_starved (hf : s.pool.free = []) (hs : n ∉ s.pool.starved) :
    requestBlock n s = (none, { s with pool := { s.pool with starved := s.pool.starved ++ [n] } }) := by
  unfold requestBlock takeFree
  rw [hf]
  dsimp only
  rw [if_neg (by simpa using hs)]
  rfl

theorem askBlock_first {b : Nat} {free : List Nat} (hf : s.pool.free = b :: free) (ho : s.walker.offered = none)
    (hc : r.asm.current = none) : askBlock n (rxAt n r p s) = rxAt n (blockedRx b r) p (takenBlock b free s) := by
  unfold askBlock
  rw [requestBlock_head (s := rxAt n r p s) hf ho]
  show assignBlock n b (rxAt n r p (takenBlock b free s)) = _
  unfold assignBlock
  simp only [Fin.getElem_fin, rxAt_line, hc]
  exact updAsm_rxAt _

theorem assignBlock_at (b : Nat) {q : Nat} (hc : r.asm.current = some q) : assignBlock n b (rxAt n r p s) =
    rxOffer n (wordReq (blockWord s q 0) (blockNumber b) (.receiver n) .rxLink) (rxAt n (blockedRx b r) p s) := by
  unfold assignBlock
  simp only [Fin.getElem_fin, rxAt_line, hc, updAsm_rxAt]
  rfl

theorem askBlock_next {b q : Nat} {free : List Nat} (hf : s.pool.free = b :: free) (ho : s.walker.offered = none)
    (hc : r.asm.current = some q) : askBlock n (rxAt n r p s) =
      rxOffer n (wordReq (blockWord s q 0) (blockNumber b) (.receiver n) .rxLink)
        (rxAt n (blockedRx b r) p (takenBlock b free s)) := by
  unfold askBlock
  rw [requestBlock_head (s := rxAt n r p s) hf ho]
  exact assignBlock_at (s := takenBlock b free s) b hc

theorem askBlock_starved (hf : s.pool.free = []) (hs : n ∉ s.pool.starved) : askBlock n (rxAt n r p s) =
    rxAt n r p { s with pool := { s.pool with starved := s.pool.starved ++ [n] } } := by
  unfold askBlock
  rw [requestBlock_starved (s := rxAt n r p s) hf hs]
  rfl

/-! ## What a receiver does of its own accord -/

section
variable (hs : n ∉ s.pool.starved) (hu : r.unplaced = none)
include hs hu

theorem rxWork_byte {b : Byte} {rest : List Byte} (ha : r.asm.awaiting = b :: rest) (hn : needsBlock r.asm = false) :
    rxWork n (rxAt n r p s) = some (storeByte n b (rxAt n { r with asm := { r.asm with awaiting := rest } } p s)) := by
  have hstarved : isStarved (rxAt n r p s) n = false := by
    show s.pool.starved.contains n = false
    simpa using hs
  unfold rxWork
  simp only [Fin.getElem_fin, rxAt_line, hu, hstarved, ha, hn, updAsm_rxAt]
  rfl

theorem rxWork_block {b : Byte} {rest : List Byte} (ha : r.asm.awaiting = b :: rest) (hn : needsBlock r.asm = true) :
    rxWork n (rxAt n r p s) = some (askBlock n (rxAt n r p s)) := by
  have hstarved : isStarved (rxAt n r p s) n = false := by
    show s.pool.starved.contains n = false
    simpa using hs
  unfold rxWork
  simp only [Fin.getElem_fin, rxAt_line, hu, hstarved, ha, hn]
  rfl

end

theorem rxWork_waits {q : Req} (hu : r.unplaced = some q) : rxWork n (rxAt n r p s) = none := by
  unfold rxWork
  simp only [Fin.getElem_fin, rxAt_line, hu]
  rfl

theorem rxWork_rests (ha : r.asm.awaiting = []) (hc : r.state ≠ .closing) : rxWork n (rxAt n r p s) = none :=
  rxWork_none (by rw [rxAt_line]; exact ha) (by rw [rxAt_line]; exact hc)

theorem rxContinue_step {k : Nat} (h : rxWork n s = some t) : rxContinue (k + 1) n s = rxContinue k n t := by
  rw [rxContinue, h]

/-- An event whose body is so written out. -/
theorem settle_rxAt (h : Quiet s) : SamePart (updRx n (fun _ => r) s) (settle (rxAt n r p s)) ∧
    requests (settle (rxAt n r p s)) = portRequests p ∧ (settle (rxAt n r p s)).port.waiting = p.waiting :=
  ⟨settle_port (e := updRx n (fun _ => r) s) h, requests_settle (e := updRx n (fun _ => r) s) h,
    waiting_settle (e := updRx n (fun _ => r) s) h⟩

/-! ## Takes (R63 to R75) -/

/-- What the parse and the pattern window make of a receiver once a character is stored or discarded. -/
def afterRx (h : HeldSetup) (c : Code) (under : Bool) (r : Receiver) : Receiver :=
  let p := if r.state = .header then headerCharacter h c r else r
  let w := windowPush p.window c
  if w = h.eom then closeByEom h under p else { p with window := w }

theorem afterStore_at (c : Code) (under : Bool) : afterStore n c under (rxAt n r p s) =
    rxContinue rxRounds n (rxAt n (afterRx s.office.held c under r) p s) := by
  unfold afterStore
  dsimp only
  rw [updRx_rxAt]
  rfl

theorem windowPush_eq {w : List Code} {c : Code} (h : w.length ≤ 4) :
    windowPush w c = (w ++ [c]).drop ((w ++ [c]).length - 4) := by
  unfold windowPush
  dsimp only
  split
  · next hlt =>
    have hlen : (w ++ [c]).length - 4 = 1 := by
      rw [List.length_append, List.length_singleton] at hlt ⊢
      omega
    rw [hlen, List.drop_one]
  · next hlt =>
    rw [Nat.sub_eq_zero_of_le (Nat.not_lt.1 hlt), List.drop_zero]

/-- The receiver may take a character (R63). -/
structure MayTake (n : LineNo) (s : State) (r : Receiver) : Prop where
  starved : n ∉ s.pool.starved
  awaiting : r.asm.awaiting = []
  unplaced : r.unplaced = none
  state : r.state = .hunting ∨ r.state = .header ∨ r.state = .text
  fifo : r.fifo ≠ []

theorem MayTake.isStarved (h : MayTake n s r) : isStarved s n = false := by
  show s.pool.starved.contains n = false
  simpa using h.starved

theorem MayTake.mayTake (h : MayTake n s r) : mayTake (Machine.isStarved s n) r = true := by
  unfold Machine.mayTake
  rw [h.isStarved, h.awaiting, h.unplaced]
  rcases h.state with hs | hs | hs <;> simp [hs, h.fifo]

/-- A take that is due: no idle close is. -/
theorem execReceiverTake_due (h : MayTake n s s.lines[n.val].rx) (hr : s.resetIn = false)
    (hi : s.lines[n.val].rx.idleClose = false ∨ 0 < s.lines[n.val].rx.closePoint ∨ s.lines[n.val].rx.state = .hunting) :
    exec (.receiverTake n) s = .next (settle (takeEntry n s)) := by
  refine lineEvent_due (n := n) (due := fun l => mayTake (isStarved s n) l.rx && !mayIdleClose (isStarved s n) l.rx)
    (f := takeEntry n) hr ?_
  show (mayTake (isStarved s n) s.lines[n.val].rx && !mayIdleClose (isStarved s n) s.lines[n.val].rx) = true
  have hidle : mayIdleClose (isStarved s n) s.lines[n.val].rx = false := by
    unfold mayIdleClose
    rcases hi with hi | hi | hi
    · simp [hi]
    · simp [Nat.ne_of_gt hi]
    · simp [hi]
  rw [h.mayTake, hidle]
  rfl

/-- A character that is taken with no gap before it. -/
theorem takeEntry_plain {e : FifoEntry} {rest : List FifoEntry} (h : MayTake n s r) (hf : r.fifo = e :: rest)
    (hg : e.gapBefore = false) : takeEntry n (rxAt n r p s) =
      if r.state = .hunting then takeHunting n e (rxAt n r p s) else takeMessage n e (rxAt n r p s) := by
  have hmay : mayTake (isStarved (rxAt n r p s) n) r = true := h.mayTake
  unfold takeEntry
  simp only [Fin.getElem_fin, rxAt_line, hf, hg, Bool.false_eq_true, if_false, hmay, if_true]

end Sys2Proof.Machine

/-! SUPPORT. The take of a character, case by case, and the close of a message. -/

namespace Sys2Proof.Machine

variable {s e t : State} {n : LineNo} {r : Receiver} {p : StorePort}

/-! ## Takes -/

theorem takeHunting_at (e : FifoEntry) : takeHunting n e (rxAt n r p s) =
    if windowPush r.window e.code = s.office.held.som then
      acceptSom n (rxAt n { popEntry e r with window := windowPush r.window e.code } p s)
    else rxAt n { popEntry e r with window := windowPush r.window e.code } p s := by
  unfold takeHunting
  dsimp only
  rw [updRx_rxAt]
  simp only [Fin.getElem_fin, rxAt_line]
  rfl

/-- The receiver as the SOM is accepted (R66). -/
def somRx (o : OfficeControl) (r : Receiver) : Receiver :=
  { r with
    state := .header, window := [], idleTimer := some 0, closeNext := 0
    asm := { Assembly.reset with
      serial := o.serial, received := o.clock, awaiting := o.held.som.map (fun c => c.setWidth 8) } }

theorem acceptSom_at : acceptSom n (rxAt n r p s) = rxContinue rxRounds n (rxAt n (somRx s.office r) p
    { s with office := { s.office with serial := s.office.serial + 1 } }) := by
  unfold acceptSom
  have hupd : ∀ f, updRx n f (updOffice (fun o => { o with serial := o.serial + 1 }) (rxAt n r p s)) =
      rxAt n (f r) p { s with office := { s.office with serial := s.office.serial + 1 } } := fun f =>
    updRx_rxAt (s := { s with office := { s.office with serial := s.office.serial + 1 } }) f
  dsimp only
  rw [hupd]
  rfl

/-- The receiver as a character is discarded under truncation (R74). -/
def truncatedRx (e : FifoEntry) (r : Receiver) : Receiver :=
  { popEntry e r with asm := { r.asm with truncated := true, mutilated := true } }

theorem takeMessage_truncating {e : FifoEntry} (h : truncating r = true) : takeMessage n e (rxAt n r p s) =
    afterStore n e.code true (rxAt n (truncatedRx e r) p s) := by
  unfold takeMessage
  simp only [Fin.getElem_fin, rxAt_line, h, if_true, updRx_rxAt]
  rfl

theorem takeMessage_stores {e : FifoEntry} (h : truncating r = false) (hn : needsBlock r.asm = false) (hm : MayTake n s r) :
    takeMessage n e (rxAt n r p s) =
      afterStore n e.code false (storeByte n (e.code.setWidth 8) (rxAt n (popEntry e r) p s)) := by
  have hmay : mayTake (isStarved (rxAt n r p s) n) r = true := hm.mayTake
  unfold takeMessage ensureBlock
  simp only [Fin.getElem_fin, rxAt_line, h, Bool.false_eq_true, if_false, hn, hmay, if_true, updRx_rxAt]

theorem takeMessage_asks {e : FifoEntry} (h : truncating r = false) (hn : needsBlock r.asm = true) :
    takeMessage n e (rxAt n r p s) =
      if mayTake (isStarved (askBlock n (rxAt n r p s)) n) (askBlock n (rxAt n r p s)).lines[n.val].rx then
        afterStore n e.code false (storeByte n (e.code.setWidth 8) (updRx n (popEntry e) (askBlock n (rxAt n r p s))))
      else askBlock n (rxAt n r p s) := by
  unfold takeMessage ensureBlock
  simp only [Fin.getElem_fin, rxAt_line, h, Bool.false_eq_true, if_false, hn, if_true]

theorem truncating_false (h : r.state = .header ∨ r.asm.storedLength < 3934) : truncating r = false := by
  unfold truncating
  rcases h with h | h
  · simp [h]
  · rw [decide_eq_false (by exact Nat.not_le.2 h), Bool.and_false]

theorem truncating_true (h : r.state = .text) (hl : 3934 ≤ r.asm.storedLength) : truncating r = true := by
  unfold truncating
  simp [h, Config.truncationLength, hl]

theorem needsBlock_false {a : Assembly} (h : chainIndex a.storedLength < a.blockCount) : needsBlock a = false :=
  decide_eq_false (Nat.not_le.2 h)

/-- A starved receiver does nothing. -/
theorem rxWork_starved (h : n ∈ s.pool.starved) : rxWork n s = none := by
  unfold rxWork
  dsimp only
  rw [if_pos]
  rw [Bool.or_eq_true]
  refine .inr ?_
  show s.pool.starved.contains n = true
  simpa using h

/-! ## The close of a message (R76, R77) -/

/-- The close write of number `k` for the assembly `a` (R76). -/
def closeReq (s : State) (n : LineNo) (a : Assembly) (k : Nat) : Req :=
  if k = 0 then wordReq (blockWord s (a.current.getD 0) 0) Config.none16 (.receiver n) (.rxClose false)
  else wordReq (blockWord s (a.first.getD 0) k) (closeHeadWord n a k) (.receiver n) (.rxClose (k == 15))

theorem closeWrite_at (k : Nat) : closeWrite (rxAt n r p s) n k = closeReq s n r.asm k := by
  unfold closeWrite
  simp only [Fin.getElem_fin, rxAt_line]
  rfl

theorem closeReq_purpose {a : Assembly} {k : Nat} (hk : k < 15) : (closeReq s n a k).purpose ≠ .rxClose true := by
  unfold closeReq
  split
  · exact fun h => Bool.noConfusion (Purpose.rxClose.inj h)
  · intro h
    have := Purpose.rxClose.inj h
    simp at this
    omega

section
variable (hs : n ∉ s.pool.starved) (hc : r.state = .closing) (hu : r.unplaced = none) (ha : r.asm.awaiting = [])
include hs hc hu ha

theorem rxWork_closes {k : Nat} (hk : r.closeNext = k) (hle : k ≤ 15) : rxWork n (rxAt n r p s) =
    some (rxOffer n (closeReq s n r.asm k) (rxAt n { r with closeNext := k + 1 } p s)) := by
  have hstarved : isStarved (rxAt n r p s) n = false := by
    show s.pool.starved.contains n = false
    simpa using hs
  unfold rxWork
  simp only [Fin.getElem_fin, rxAt_line, hu, hstarved, ha, hc, hk, closeWrite_at, updRx_rxAt]
  rw [if_neg (by simp), if_pos ⟨trivial, hle⟩]

/-- The close writes are placed one after another, and with head word 15 the hand-off is made. -/
theorem rxContinue_closes {j k : Nat} {rounds : Nat} (hk : r.closeNext = k) (hj : k + j = 15) (hp : PortRoom (j + 1) p) :
    rxContinue (rounds + j + 1) n (rxAt n r p s) = rxContinue rounds n (handOff n (rxAt n { r with closeNext := 16 }
      (placedAll ((List.range' k (j + 1)).map (closeReq s n r.asm)) p) s)) := by
  induction j generalizing k r p with
  | zero =>
    obtain rfl : k = 15 := by omega
    have hlast : (closeReq s n r.asm 15).purpose = .rxClose true := rfl
    rw [rxContinue_step (rxWork_closes hs hc hu ha hk (by omega))]
    refine congrArg _ ?_
    unfold rxOffer rxPlaced
    rw [if_pos (admits_of_room (s := rxAt n { r with closeNext := 15 + 1 } p s) hp), if_pos hlast, place_port]
    rfl
  | succ j ih =>
    rw [← Nat.add_assoc rounds j 1, rxContinue_step (rxWork_closes hs hc hu ha hk (by omega)),
      rxOffer_at (hp.mono (Nat.le_add_left 1 (j + 1))) (closeReq_purpose (by omega))]
    exact ih (k := k + 1) (r := { r with closeNext := k + 1 }) hc hu ha rfl (by omega) (hp.placed _)

end

/-- The receiver as the message is handed off (R77). -/
def huntingRx (r : Receiver) : Receiver := { r with state := .hunting, asm := Assembly.reset, closeNext := 0 }

/-- Routing leaves it as it is that no settings wait for line `n`. -/
theorem keptCalm_settled (n : LineNo) : KeptCalm (fun _ => True) (fun u => u.lines[n.val].settingsPending = false) where
  port h _ _ := h
  report h _ := h
  walker h _ := h
  pool h _ := h
  du h _ := h
  count h _ := h
  serial h _ := h
  rx {u} h m f := by
    by_cases hm : n = m
    · subst hm
      rw [updRx_line]
      exact h
    · rw [updRx, updLine_lines_ne _ _ hm]
      exact h
  transfer {u} h m := by
    rw [transferSettings_eq]
    by_cases hm : n = m
    · subst hm
      rw [updLine_line]
      rfl
    · rw [updLine_lines_ne _ _ hm]
      exact h
  transmitter {u} h {m} _ f _ := by
    by_cases hm : n = m
    · subst hm
      rw [updTx_line]
      exact h
    · rw [updTx, updLine_lines_ne _ _ hm]
      exact h
  awake _ _ _ := trivial

/-- What the hand-off does with the message (R77). -/
def handedOff (n : LineNo) (a : Assembly) (s : State) : State :=
  if a.incomplete then askWalk (handOverOfAssembly n a 2) s
  else if a.headerFault then askWalk (handOverOfAssembly n a 1) s
  else routeMessage (recordOfAssembly n a) s

theorem handOff_eq (h : s.lines[n.val].settingsPending = false) :
    handOff n s = updRx n huntingRx (handedOff n s.lines[n.val].rx.asm s) := by
  have hkept : (handedOff n s.lines[n.val].rx.asm s).lines[n.val].settingsPending = false := by
    unfold handedOff
    split
    · exact h
    · split
      · exact h
      · exact (keptCalm_settled n).routeMessage h _
  unfold handOff
  refine checkIdlePoint_settled (s := updRx n huntingRx (handedOff n s.lines[n.val].rx.asm s)) ?_
  rw [updRx_line]
  exact hkept

/-- The whole close of a message whose requests all find room. -/
theorem rxContinue_handsOff (hs : n ∉ s.pool.starved) (hc : r.state = .closing) (hu : r.unplaced = none)
    (ha : r.asm.awaiting = []) (hk : r.closeNext = 0) (hp : PortRoom 16 p)
    (hset : s.lines[n.val].settingsPending = false) : rxContinue rxRounds n (rxAt n r p s) =
      updRx n huntingRx (handedOff n r.asm (rxAt n { r with closeNext := 16 }
        (placedAll ((List.range' 0 16).map (closeReq s n r.asm)) p) s)) := by
  rw [show rxRounds = 16 + 15 + 1 from rfl, rxContinue_closes hs hc hu ha hk (by omega) hp,
    handOff_eq (by rw [rxAt_line]; exact hset)]
  have hline : (rxAt n { r with closeNext := 16 } (placedAll ((List.range' 0 (15 + 1)).map (closeReq s n r.asm)) p)
      s).lines[n.val].rx.asm = r.asm := by rw [rxAt_line]
  rw [hline]
  refine rxContinue_rests (rxWork_none ?_ ?_)
  · rw [updRx_line]
    rfl
  · rw [updRx_line]
    exact RxState.noConfusion

/-! ## The head words of a closed message (R76) -/

theorem headWord3_bits (cls n : Nat) (complete mutilated truncated headerFault incomplete autoRelease : Bool) :
    headWord3 cls n complete mutilated truncated headerFault incomplete autoRelease false =
      0#2 ++ BitVec.ofBool autoRelease ++ BitVec.ofBool incomplete ++ BitVec.ofBool headerFault ++
        BitVec.ofBool truncated ++ BitVec.ofBool mutilated ++ BitVec.ofBool complete ++ BitVec.ofNat 5 n ++
        BitVec.ofNat 3 cls := by
  refine BitVec.eq_of_toNat_eq ?_
  have h1 := complete.toNat_le
  have h2 := mutilated.toNat_le
  have h3 := truncated.toNat_le
  have h4 := headerFault.toNat_le
  have h5 := incomplete.toNat_le
  have h6 := autoRelease.toNat_le
  simp only [toNat_append_eq, headWord3, bit_eq, BitVec.toNat_ofNat, BitVec.toNat_ofBool, Bool.toNat_false]
  omega

theorem headWord6_bits (k : Nat) : headWord6 k 0 = 0#8 ++ BitVec.ofNat 8 k := by
  refine BitVec.eq_of_toNat_eq ?_
  rw [toNat_append_eq]
  simp [headWord6]
  omega

theorem setWidth_eq_append (v : BitVec 10) : v.setWidth 16 = 0#6 ++ v := by
  refine BitVec.eq_of_toNat_eq ?_
  rw [toNat_append_eq, BitVec.toNat_setWidth]
  simp
  omega

theorem closedHead_getD (a : Assembly) {k : Nat} (hk : k < 15) : (closedHead n a).getD k 0 = closeHeadWord n a (k + 1) := by
  unfold closedHead
  interval_cases k
  · rfl
  · exact (headWord2_plain _).symm
  · exact (headWord3_bits _ _ _ _ _ _ _ _).symm
  · exact (setWidth_eq_append _).symm
  · rfl
  · exact (headWord6_bits _).symm
  · exact (setWidth_eq_append _).symm
  · exact (setWidth_eq_append _).symm
  · exact (setWidth_eq_append _).symm
  · exact (setWidth_eq_append _).symm
  · exact (setWidth_eq_append _).symm
  · exact (setWidth_eq_append _).symm
  · exact (setWidth_eq_append _).symm
  · exact (setWidth_eq_append _).symm
  · exact (time16_eq _).symm

theorem closeWrites_eq {f b : Nat} {a : Assembly} (hf : a.first = some f) (hb : a.current = some b) :
    (List.range' 0 16).map (closeReq s n a) = closeWrites s n f b a := by
  unfold closeWrites
  rw [List.range'_succ, List.map_cons]
  congr 1
  · unfold closeReq
    rw [if_pos rfl, hb]
    rfl
  · rw [List.range_eq_range', List.range'_eq_map_range, List.range'_eq_map_range, List.map_map, List.map_map]
    refine List.map_congr_left fun k hk => ?_
    have hlt : k < 15 := List.mem_range.1 hk
    show closeReq s n a (1 + k) = wordReq _ ((closedHead n a).getD (0 + k) 0) _ _
    unfold closeReq
    rw [if_neg (by omega), hf, Nat.zero_add, closedHead_getD a hlt, Nat.add_comm 1 k]
    congr 2
    · show k + 1 = 0 + k + 1
      rw [Nat.zero_add]
    show (k + 1 == 15) = (0 + k == 14)
    rw [Nat.zero_add, Bool.eq_iff_iff, beq_iff_eq, beq_iff_eq]
    omega

end Sys2Proof.Machine

/-! SUPPORT. What follows a stored character in TEXT, and the first block of a message. -/

namespace Sys2Proof.Machine

variable {s e t : State} {n : LineNo} {r : Receiver} {p : StorePort}

/-- A receiver that is left as it is. -/
theorem rxContinue_still {k : Nat} (ha : r.asm.awaiting = []) (hc : r.state ≠ .closing) :
    rxContinue k n (rxAt n r p s) = rxAt n r p s := rxContinue_rests (rxWork_rests ha hc)

theorem afterRx_text {h : HeldSetup} {c : Code} {under : Bool} (ht : r.state = .text) : afterRx h c under r =
    if windowPush r.window c = h.eom then closeByEom h under r else { r with window := windowPush r.window c } := by
  have hne : r.state ≠ .header := by rw [ht]; exact RxState.noConfusion
  unfold afterRx
  rw [if_neg hne]

/-- The end of an event that has changed one receiver and nothing at the Store Port. -/
theorem settle_rxAt_still (h : Quiet s) : settle (rxAt n r s.port s) =
    eventEnd { s with lines := s.lines.set n { s.lines[n] with rx := r } } :=
  settle_quiet (s := rxAt n r s.port s) h

/-- The byte writes of bytes that are stored one after another into block `k`, from text position `len` (R67). -/
def bytesOf (s : State) (n : LineNo) (k len : Nat) : List Byte → List Req
  | [] => []
  | b :: bs =>
    byteReq (blockWord s k (textWord len)) (len % 2 == 1) b (.receiver n) .rxByte :: bytesOf s n k (len + 1) bs

/-- The receiver with `k` bytes more stored and none awaiting. -/
def filledRx (k : Nat) (r : Receiver) : Receiver :=
  { r with asm := { r.asm with storedLength := r.asm.storedLength + k, awaiting := [] } }

theorem filledRx_zero (h : r.asm.awaiting = []) : filledRx 0 r = r := by
  unfold filledRx
  rw [← h]
  rfl

/-- With room, and blocks enough, the bytes awaiting are all stored. -/
theorem rxContinue_stores {bs : List Byte} {k : Nat} (hs : n ∉ s.pool.starved) (hu : r.unplaced = none)
    (ha : r.asm.awaiting = bs) (hb : ∀ i < bs.length, chainIndex (r.asm.storedLength + i) < r.asm.blockCount)
    (hp : PortRoom bs.length p) : rxContinue (k + bs.length) n (rxAt n r p s) =
      rxContinue k n (rxAt n (filledRx bs.length r)
        (placedAll (bytesOf s n (r.asm.current.getD 0) r.asm.storedLength bs) p) s) := by
  induction bs generalizing r p with
  | nil =>
    rw [List.length_nil, filledRx_zero ha]
    rfl
  | cons b bs ih =>
    have hrest := ih (r := storedRx { r with asm := { r.asm with awaiting := bs } })
      (p := placedPort (byteOf s n r.asm b) p) hu rfl (fun i hi => by
        have hi' := hb (i + 1) (by simp only [List.length_cons]; omega)
        rw [show r.asm.storedLength + (i + 1) = r.asm.storedLength + 1 + i by omega] at hi'
        exact hi') (hp.placed _)
    have hfilled : filledRx bs.length (storedRx { r with asm := { r.asm with awaiting := bs } }) =
        filledRx (bs.length + 1) r := by
      unfold filledRx storedRx
      dsimp only
      rw [show r.asm.storedLength + (bs.length + 1) = r.asm.storedLength + 1 + bs.length by omega]
    rw [hfilled] at hrest
    rw [List.length_cons, ← Nat.add_assoc, rxContinue_step (rxWork_byte hs hu ha
      (needsBlock_false (hb 0 (by simp)))), storeByte_at b (hp.mono (Nat.le_add_left 1 _))]
    exact hrest

/-- The whole take of a character with no gap before it. -/
theorem exec_take {e : FifoEntry} {rest : List FifoEntry} (hm : MayTake n s s.lines[n.val].rx) (hr : s.resetIn = false)
    (hf : s.lines[n.val].rx.fifo = e :: rest) (hg : e.gapBefore = false)
    (hi : s.lines[n.val].rx.idleClose = false ∨ 0 < s.lines[n.val].rx.closePoint ∨ s.lines[n.val].rx.state = .hunting) :
    exec (.receiverTake n) s = .next (settle (if s.lines[n.val].rx.state = .hunting
      then takeHunting n e (rxAt n s.lines[n.val].rx s.port s) else takeMessage n e (rxAt n s.lines[n.val].rx s.port s))) := by
  rw [execReceiverTake_due hm hr hi]
  conv_lhs => rw [← rxAt_self n s]
  rw [takeEntry_plain hm hf hg]

end Sys2Proof.Machine

namespace Sys2Proof.Receivers
open Sys2Proof.Machine

/-- Settles O27: the window, and the SOM with a first block or without. -/
theorem takeHunting : Obligations.TakeHunting := by
  intro s n e rest win hq hs hst ha hu hf hg hw hwin
  have hm : MayTake n s s.lines[n.val].rx := ⟨hs, ha, hu, .inl hst, by rw [← Fin.getElem_fin, hf]; exact List.cons_ne_nil _ _⟩
  have hexec := exec_take hm hq.1 hf hg (.inr (.inr hst))
  rw [if_pos (by exact hst), takeHunting_at, windowPush_eq (by exact hw), ← Fin.getElem_fin, ← hwin] at hexec
  have hrest : s.lines[n].rx.fifo.tail = rest := by rw [hf]; rfl
  have hwinlen : win ≠ [] := fun h => by
    have hlen := congrArg List.length hwin
    rw [h, List.length_drop, List.length_append, List.length_singleton, List.length_nil] at hlen
    omega
  clear hf
  subst hrest
  rw [hexec]
  refine ⟨fun hne => ?_, fun heq hfree => ?_, fun b free c0 c1 c2 c3 heq hsom hfree ho hroom => ?_⟩
  · rw [if_neg hne, settle_rxAt_still hq]
    rfl
  · obtain ⟨c, cs, hsom⟩ := List.exists_cons_of_ne_nil (heq ▸ hwinlen)
    rw [if_pos heq, acceptSom_at, show rxRounds = 31 + 1 from rfl,
      rxContinue_step (rxWork_block (by exact hs) (by exact hu) (by
        show s.office.held.som.map _ = _
        rw [hsom]
        rfl) rfl), askBlock_starved (by exact hfree) (by exact hs), rxContinue_rests (rxWork_starved (by
          show n ∈ s.pool.starved ++ [n]
          simp)), settle_quiet (by exact hq)]
    rfl
  · obtain ⟨u, hu'⟩ : ∃ u : State, u = takenBlock b free { s with office := { s.office with serial := s.office.serial + 1 } } :=
      ⟨_, rfl⟩
    obtain ⟨r, hr⟩ : ∃ r : Receiver, r = { somRx s.office s.lines[n].rx with
      fifo := s.lines[n].rx.fifo.tail, noise := e.noise, closePoint := s.lines[n].rx.closePoint - 1 } := ⟨_, rfl⟩
    have hbytes : acceptSom n (rxAt n { popEntry e s.lines[n].rx with window := win } s.port s) =
        rxAt n (filledRx 4 (blockedRx b r)) (placedAll [byteReq (blockWord s b 16) false (c0.setWidth 8) (.receiver n) .rxByte,
           byteReq (blockWord s b 16) true (c1.setWidth 8) (.receiver n) .rxByte,
           byteReq (blockWord s b 17) false (c2.setWidth 8) (.receiver n) .rxByte,
           byteReq (blockWord s b 17) true (c3.setWidth 8) (.receiver n) .rxByte] s.port) u := by
      have hawait : (somRx s.office s.lines[n].rx).asm.awaiting =
          [c0.setWidth 8, c1.setWidth 8, c2.setWidth 8, c3.setWidth 8] := by
        show s.office.held.som.map _ = _
        rw [hsom]
        rfl
      rw [acceptSom_at, show rxRounds = 27 + 4 + 1 from rfl, rxContinue_step (rxWork_block (by exact hs) (by exact hu)
        (by exact hawait) rfl), askBlock_first (by exact hfree) (by exact ho) rfl, ← hu']
      have hstart : somRx s.office { popEntry e s.lines[n].rx with window := win } = r := by
        rw [hr]
        rfl
      rw [hstart]
      refine (rxContinue_stores (s := u) (r := blockedRx b r) (bs := [c0.setWidth 8, c1.setWidth 8, c2.setWidth 8, c3.setWidth 8])
        (by rw [hu']; exact hs) (by rw [hr]; exact hu) (by rw [hr]; exact hawait) (fun i hi => ?_) hroom).trans ?_
      · have hi4 : i < 4 := hi
        rw [hr]
        show chainIndex (0 + i) < 1
        unfold chainIndex
        rw [if_pos (by omega)]
        exact Nat.one_pos
      · have hreqs : bytesOf u n b 0 [c0.setWidth 8, c1.setWidth 8, c2.setWidth 8, c3.setWidth 8] =
            [byteReq (blockWord s b 16) false (c0.setWidth 8) (.receiver n) .rxByte,
             byteReq (blockWord s b 16) true (c1.setWidth 8) (.receiver n) .rxByte,
             byteReq (blockWord s b 17) false (c2.setWidth 8) (.receiver n) .rxByte,
             byteReq (blockWord s b 17) true (c3.setWidth 8) (.receiver n) .rxByte] := by
          rw [hu']
          rfl
        rw [rxContinue_still rfl (by rw [hr]; exact RxState.noConfusion), ← hreqs, hr]
        rfl
    rw [if_pos heq, hbytes]
    obtain ⟨hpart, hreq, -⟩ := settle_rxAt (s := u) (n := n) (r := filledRx 4 (blockedRx b r))
          (p := placedAll [byteReq (blockWord s b 16) false (c0.setWidth 8) (.receiver n) .rxByte,
           byteReq (blockWord s b 16) true (c1.setWidth 8) (.receiver n) .rxByte,
           byteReq (blockWord s b 17) false (c2.setWidth 8) (.receiver n) .rxByte,
           byteReq (blockWord s b 17) true (c3.setWidth 8) (.receiver n) .rxByte] s.port) (by rw [hu']; exact hq)
    have hline := hpart.lines.trans (rfl : (updRx n (fun _ => _) u).lines = _)
    have hrx : ∀ r' : Receiver, (updRx n (fun _ => r') u).lines[n].rx = r' := fun r' => by
      rw [Fin.getElem_fin, updRx_line]
    refine ⟨_, rfl, hpart.office.trans (by rw [hu']; rfl), hpart.pool.trans (by rw [hu']; rfl), ?_, ?_, ?_, ?_,
      hreq.trans (portRequests_placedAll _ _), hpart.store.trans (by rw [hu']; rfl), hpart.du.trans (by rw [hu']; rfl),
      hpart.router.trans (by rw [hu']; rfl)⟩
    all_goals
      rw [hpart.lines, hrx, hr]
      rfl

end Sys2Proof.Receivers

/-! SUPPORT. The close of a message that a take or an idle close begins. -/

namespace Sys2Proof.Machine

variable {s e t : State} {n : LineNo} {r : Receiver} {p : StorePort}

/-- An event that changes one receiver and the Store Port. -/
theorem settle_rxAt_line {g : Receiver} (h : Quiet s) (hg : r = g) :
    SamePart { s with lines := s.lines.set n { s.lines[n] with rx := g } } (settle (rxAt n r p s)) ∧
      requests (settle (rxAt n r p s)) = portRequests p ∧ (settle (rxAt n r p s)).port.waiting = p.waiting := by
  subst hg
  exact settle_rxAt h

theorem settle_rxAt_rx (h : Quiet s) : (settle (rxAt n r p s)).lines[n.val].rx = r := by
  rw [(settle_rxAt h).1.lines, updRx_line]

theorem settle_rxAt_others (h : Quiet s) : (settle (rxAt n r p s)).port.waiting = p.waiting ∧
    (settle (rxAt n r p s)).pool = s.pool ∧ (settle (rxAt n r p s)).du = s.du ∧ (settle (rxAt n r p s)).store = s.store :=
  ⟨(settle_rxAt h).2.2, (settle_rxAt h).1.pool, (settle_rxAt h).1.du, (settle_rxAt h).1.store⟩

/-- The waiting list with an issuer that does not wait yet. -/
theorem waitingPort_waiting {i : Issuer} (h : i ∉ p.waiting) : (waitingPort i p).waiting = p.waiting ++ [i] := by
  unfold waitingPort
  rw [if_neg (by simpa using h)]

/-- A receiver that has a first block keeps it. -/
theorem blockedRx_later {f : Nat} (b : Nat) (hf : r.asm.first = some f) : blockedRx b r =
    { r with asm := { r.asm with current := some b, blockCount := r.asm.blockCount + 1 } } := by
  have hfirst : some (r.asm.first.getD b) = r.asm.first := by rw [hf]; rfl
  unfold blockedRx
  rw [hfirst]

/-- The character's byte is stored and what follows it done. -/
theorem storeAndAfter {e : FifoEntry} (hp : PortRoom 1 p) : afterStore n e.code false
    (storeByte n (e.code.setWidth 8) (rxAt n (popEntry e r) p s)) =
      rxContinue rxRounds n (rxAt n (afterRx s.office.held e.code false (storedRx (popEntry e r)))
        (placedPort (byteOf s n r.asm (e.code.setWidth 8)) p) s) := by
  rw [storeByte_at _ hp, afterStore_at]
  rfl

/-- The end of an event that hands a message over to a walk while another walk is in progress. -/
theorem settle_handsOver {w : WalkRequest} (hr : s.resetIn = false) (ho : s.report.offers = []) (hw : s.walker.walk ≠ none) :
    SamePart { s with
        lines := s.lines.set n { s.lines[n] with rx := huntingRx r }
        walker := { s.walker with queue := s.walker.queue ++ [w] } }
      (settle (updRx n huntingRx (askWalk w (rxAt n r p s)))) ∧
    requests (settle (updRx n huntingRx (askWalk w (rxAt n r p s)))) = portRequests p := by
  have hbody : updRx n huntingRx (askWalk w (rxAt n r p s)) = rxAt n (huntingRx r) p (askWalk w s) :=
    updRx_rxAt (s := askWalk w s) huntingRx
  have hquiet : Quiet (askWalk w s) := ⟨hr, .inl hw, ho⟩
  rw [hbody]
  obtain ⟨hpart, hreq, -⟩ := settle_rxAt_line (s := askWalk w s) (n := n) (p := p) hquiet (rfl : huntingRx r = huntingRx r)
  exact ⟨hpart, hreq⟩

end Sys2Proof.Machine

namespace Sys2Proof.Receivers
open Sys2Proof.Machine

section
variable {s : State} {n : LineNo} {e : FifoEntry} {win : List Code}

/-- A take in TEXT, of a character with no gap before it. -/
theorem exec_takeText (hm : MayTake n s s.lines[n.val].rx) (hr : s.resetIn = false) (ht : s.lines[n.val].rx.state = .text)
    {rest : List FifoEntry} (hf : s.lines[n.val].rx.fifo = e :: rest) (hg : e.gapBefore = false)
    (hi : s.lines[n.val].rx.idleClose = false) : exec (.receiverTake n) s =
      .next (settle (takeMessage n e (rxAt n s.lines[n.val].rx s.port s))) := by
  rw [exec_take hm hr hf hg (.inl hi), if_neg (by rw [ht]; exact RxState.noConfusion)]

end

/-- Settles O28: the character stored or discarded, the close by EOM, and the block that the text position needs. -/
theorem takeText : Obligations.TakeText := by
  refine ⟨fun s n e rest win b hq hs hst ha hu hf hg hi hw hc hb hwin => ?_,
    fun s n e rest win b f g hq hs hst ha hu hf hg hi hw hc hfirst hlen hb hwin hgr => ?_⟩
  · simp only [Fin.getElem_fin] at *
    have hm : MayTake n s s.lines[n.val].rx := ⟨hs, ha, hu, .inr (.inr hst), by rw [hf]; exact List.cons_ne_nil _ _⟩
    rw [exec_takeText hm hq.1 hst hf hg hi]
    generalize hr : s.lines[n.val].rx = r at *
    have hrest : r.fifo.tail = rest := by rw [hf]; rfl
    have hpush : windowPush r.window e.code = win := (windowPush_eq hw).trans hwin.symm
    clear hf hwin
    subst hrest
    have hclosing : ∀ q : Receiver, q.state = .text → q.state ≠ .closing := fun q h => by rw [h]; exact RxState.noConfusion
    have hneeds : needsBlock r.asm = false := needsBlock_false hb
    have hbyte : byteOf s n r.asm (e.code.setWidth 8) = byteReq (blockWord s b (textWord r.asm.storedLength))
        (r.asm.storedLength % 2 == 1) (e.code.setWidth 8) (.receiver n) .rxByte := by
      unfold byteOf
      rw [hc]
      rfl
    refine ⟨fun hne hlen hroom => ⟨_, rfl, ?_⟩, fun hne hlen => ?_, fun c0 cs heq heom hlen hwait hn => ⟨_, rfl, ?_⟩,
      fun f a heq hlen hroom hset hinc hfirst ha' => ?_⟩
    · rw [takeMessage_stores (truncating_false (.inr hlen)) hneeds hm, storeAndAfter hroom,
        afterRx_text (by exact hst), if_neg (by exact fun h => hne (hpush.symm.trans h)),
        rxContinue_still (by exact ha) (hclosing _ (by exact hst)), hbyte]
      obtain ⟨hpart, hreq, -⟩ := settle_rxAt_line (n := n) (p := placedPort _ s.port) hq
        (show ({ storedRx (popEntry e r) with window := windowPush r.window e.code } : Receiver) = _ by rw [hpush])
      exact ⟨hpart, hreq.trans (portRequests_placed _ _)⟩
    · rw [takeMessage_truncating (truncating_true hst hlen), afterStore_at, afterRx_text (by exact hst),
        if_neg (by exact fun h => hne (hpush.symm.trans h)), rxContinue_still (by exact ha) (hclosing _ (by exact hst)),
        settle_rxAt_still hq, ← hpush]
      rfl
    · have hafter : afterRx s.office.held e.code true (truncatedRx e r) = closeByEom s.office.held true (truncatedRx e r) :=
        (afterRx_text (by exact hst)).trans (if_pos (hpush.trans heq))
      have hawait : (closeByEom s.office.held true (truncatedRx e r)).asm.awaiting =
          c0.setWidth 8 :: cs.map (fun c => c.setWidth 8) := by
        show s.office.held.eom.map _ = _
        rw [heom]
        rfl
      rw [takeMessage_truncating (truncating_true hst (Nat.le_of_eq hlen.symm)), afterStore_at, hafter,
        show rxRounds = 31 + 1 from rfl, rxContinue_step (rxWork_byte hs (by exact hu) hawait (by exact hneeds)),
        storeByte_waits _ hwait, rxContinue_rests (rxWork_waits rfl)]
      rw [settle_rxAt_rx hq, (settle_rxAt_others hq).1, (settle_rxAt_others hq).2.1, (settle_rxAt_others hq).2.2.1,
        (settle_rxAt_others hq).2.2.2, waitingPort_waiting hn]
      refine ⟨rfl, rfl, rfl, rfl, rfl, rfl, rfl, rfl, congrArg some ?_, rfl, rfl, rfl, rfl⟩
      show byteReq (blockWord s (r.asm.current.getD 0) (textWord r.asm.storedLength)) (r.asm.storedLength % 2 == 1) _ _ _ = _
      rw [hc, hlen]
      rfl
    · have hafter : afterRx s.office.held e.code false (storedRx (popEntry e r)) =
          closeByEom s.office.held false (storedRx (popEntry e r)) := (afterRx_text (by exact hst)).trans (if_pos (hpush.trans heq))
      have hheader : (storedRx (popEntry e r)).state ≠ .header := by
        show r.state ≠ .header
        rw [hst]
        exact RxState.noConfusion
      obtain ⟨q, hqr⟩ : ∃ q : Receiver, q = { r with
          state := .closing, fifo := r.fifo.tail, noise := e.noise, closePoint := r.closePoint - 1, window := []
          idleTimer := none, idleClose := false, closeNext := 0, asm := a } := ⟨_, rfl⟩
      have hclosed : closeByEom s.office.held false (storedRx (popEntry e r)) = q := by
        rw [hqr]
        unfold closeByEom
        rw [ha', if_neg hheader, if_neg hheader, show ((storedRx (popEntry e r)).state == .header) = false by simpa using hheader,
          Bool.or_false]
        rfl
      have hcurrent : a.current = some b := by
        rw [ha']
        exact hc
      have hfirst' : a.first = some f := by
        rw [ha']
        exact hfirst
      have hincomplete : a.incomplete = false := by
        rw [ha']
        exact hinc
      rw [takeMessage_stores (truncating_false (.inr hlen)) hneeds hm, storeAndAfter (PortRoom.mono hroom (by decide)), hafter, hclosed,
        rxContinue_handsOff (r := q) hs (by rw [hqr]) (by rw [hqr]; exact hu) (by rw [hqr, ha']; exact ha) (by rw [hqr])
          (PortRoom.placed (k := 16) hroom _) hset, show q.asm = a by rw [hqr], closeWrites_eq hfirst' hcurrent]
      refine ⟨rxAt n { q with asm := a, closeNext := 16 } (placedAll (closeWrites s n f b a)
        (placedPort (byteOf s n r.asm (e.code.setWidth 8)) s.port)) s, ?_,
        (portRequests_placedAll _ _).trans ?_, congrArg (fun u => Host.Outcome.next (settle u))
        (congrArg (updRx n huntingRx) ?_)⟩
      · rw [hqr, ← hi]
        rfl
      · rw [portRequests_placed, List.append_assoc, hbyte]
        rfl
      · unfold handedOff
        rw [if_neg (by simp [hincomplete])]
        cases hfault : a.headerFault with
        | true =>
          simp only [if_true]
          unfold handOverOfAssembly
          rw [hfirst']
          rfl
        | false =>
          simp only [Bool.false_eq_true, if_false]
          unfold recordOfAssembly
          rw [hfirst', hfault, hincomplete, show a.complete = true by rw [ha'], show a.autoRelease = true by rw [ha']]
          rfl
  · simp only [Fin.getElem_fin] at *
    have hm : MayTake n s s.lines[n.val].rx := ⟨hs, ha, hu, .inr (.inr hst), by rw [hf]; exact List.cons_ne_nil _ _⟩
    rw [exec_takeText hm hq.1 hst hf hg hi]
    generalize hr : s.lines[n.val].rx = r at *
    have hrest : r.fifo.tail = rest := by rw [hf]; rfl
    have hpush : windowPush r.window e.code = win := (windowPush_eq hw).trans hwin.symm
    have hfifo : r.fifo ≠ [] := hm.fifo
    clear hf hwin
    subst hrest
    have hneeds : needsBlock r.asm = true := decide_eq_true hb
    rw [takeMessage_asks (truncating_false (.inr hlen)) hneeds]
    refine ⟨fun k free hfree ho hne hroom => ⟨_, rfl, ?_⟩, fun k free hfree ho hwait hn => ⟨_, rfl, ?_⟩, fun hfree => ?_⟩
    · have hmay : MayTake n (takenBlock k free s) (blockedRx k r) := ⟨hs, ha, hu, .inr (.inr hst), hfifo⟩
      have hroom1 : PortRoom 1 (placedPort (wordReq (blockWord s b 0) (blockNumber k) (.receiver n) .rxLink) s.port) :=
        PortRoom.placed (k := 1) hroom _
      have hnext : isStarved (takenBlock k free s) n = false := hmay.isStarved
      have hbyte : byteOf s n (blockedRx k r).asm (e.code.setWidth 8) = byteReq (blockWord s k (textWord r.asm.storedLength))
        (r.asm.storedLength % 2 == 1) (e.code.setWidth 8) (.receiver n) .rxByte := rfl
      rw [askBlock_next hfree ho hc, rxOffer_at (PortRoom.mono hroom (by decide)) Purpose.noConfusion, rxAt_line,
        if_pos (by exact hmay.mayTake), updRx_rxAt, storeAndAfter hroom1, afterRx_text (by exact hst),
        if_neg (by exact fun h => hne (hpush.symm.trans h)), rxContinue_still (by exact ha) (by
          show r.state ≠ .closing
          rw [hst]
          exact RxState.noConfusion)]
      obtain ⟨hpart, hreq, -⟩ := settle_rxAt_line (s := takenBlock k free s) (n := n)
        (p := placedPort (byteOf s n (blockedRx k r).asm (e.code.setWidth 8))
          (placedPort (wordReq (blockWord s b 0) (blockNumber k) (.receiver n) .rxLink) s.port)) hq
        (show ({ storedRx (popEntry e (blockedRx k r)) with window := windowPush r.window e.code } : Receiver) =
          { g with asm := { r.asm with
             current := some k, blockCount := r.asm.blockCount + 1, storedLength := r.asm.storedLength + 1 } } by
          rw [hpush, hgr, blockedRx_later k hfirst]
          rfl)
      refine ⟨hpart, hreq.trans ?_⟩
      rw [portRequests_placed, portRequests_placed, List.append_assoc, hbyte]
      rfl
    · have hwaits : mayTake (isStarved (takenBlock k free s) n) { blockedRx k r with
          unplaced := some (wordReq (blockWord s b 0) (blockNumber k) (.receiver n) .rxLink) } = false := by
        unfold mayTake
        simp
      rw [askBlock_next hfree ho hc, rxOffer_waits hwait, rxAt_line, if_neg (by
        exact ne_true_of_eq_false hwaits)]
      obtain ⟨hpart, hreq, hwaiting⟩ := settle_rxAt_line (s := takenBlock k free s) (n := n)
        (p := waitingPort (.receiver n) s.port) hq
        (show ({ blockedRx k r with unplaced := some (wordReq (blockWord s b 0) (blockNumber k) (.receiver n) .rxLink) } :
            Receiver) = { r with
              asm := { r.asm with current := some k, blockCount := r.asm.blockCount + 1 }
              unplaced := some (wordReq (blockWord s b 0) (BitVec.ofNat 16 k) (.receiver n) .rxLink) } by
          rw [blockedRx_later k hfirst]
          rfl)
      refine ⟨hwaiting.trans (waitingPort_waiting hn), hreq.trans ?_, hpart⟩
      rw [portRequests_waiting]
      rfl
    · have hstarved : mayTake (isStarved { s with pool := { s.pool with starved := s.pool.starved ++ [n] } } n) r = false := by
        have hmem : isStarved { s with pool := { s.pool with starved := s.pool.starved ++ [n] } } n = true := by
          show (s.pool.starved ++ [n]).contains n = true
          simp
        unfold mayTake
        rw [hmem]
        rfl
      rw [askBlock_starved hfree hs, rxAt_line, if_neg (by exact ne_true_of_eq_false hstarved), ← hr]
      exact congrArg Host.Outcome.next ((settle_quiet (by exact hq)).trans (congrArg eventEnd
        (rxAt_self n { s with pool := { s.pool with starved := s.pool.starved ++ [n] } })))

/-- Settles O29: the expiry marks the close point, and the idle close writes the head and hands the message over. -/
theorem idleClose : Obligations.IdleClose := by
  refine ⟨fun s n hq hst ht => ?_, fun s n f b a hr ho hw hst hi hc hs ha hu hg hset hf hb hroom ha' => ?_⟩
  · have hdue : (fun l : LineUnit => idleTimerRuns l.rx) s.lines[n] = true := by
      show idleTimerRuns s.lines[n].rx = true
      obtain ⟨k, hk⟩ := Option.ne_none_iff_exists'.1 ht
      unfold idleTimerRuns
      rcases hst with h | h <;> simp only [h, hk] <;> rfl
    exact lineEvent_ends (n := n) (due := fun l => idleTimerRuns l.rx) (f := updRx n expireIdle) hq hdue rfl hq
  · simp only [Fin.getElem_fin] at *
    have hexec : exec (.idleClose n) s = .next (settle (idleCloseMessage n s)) := by
      refine lineEvent_due (n := n) (due := fun l => mayIdleClose (isStarved s n) l.rx) (f := idleCloseMessage n) hr ?_
      have hstarved : isStarved s n = false := by
        show s.pool.starved.contains n = false
        simpa using hs
      show mayIdleClose (isStarved s n) s.lines[n.val].rx = true
      unfold mayIdleClose
      rcases hst with h | h <;> rw [hstarved, h, hi, hc, ha, hu] <;> rfl
    rw [hexec]
    generalize hrx : s.lines[n.val].rx = r at *
    obtain ⟨q, hqr⟩ : ∃ q : Receiver, q = { r with
      state := .closing, idleClose := false, window := [], pendingGap := false, closeNext := 0, asm := a } := ⟨_, rfl⟩
    have hbody : idleCloseMessage n s = rxContinue rxRounds n (rxAt n q s.port s) := by
      unfold idleCloseMessage
      rw [updRx_at, hrx, hg, hqr, ha', Bool.or_false]
      rfl
    have hfirst : a.first = some f := by rw [ha']; exact hf
    have hcurrent : a.current = some b := by rw [ha']; exact hb
    have hhanded : ∀ u, handedOff n a u = askWalk ⟨.handOver, f, r.asm.blockCount, n.val, 2, none⟩ u := fun u => by
      unfold handedOff handOverOfAssembly
      rw [if_pos (by rw [ha']), hfirst, ha']
      rfl
    rw [hbody, rxContinue_handsOff (r := q) hs (by rw [hqr]) (by rw [hqr]; exact hu) (by rw [hqr, ha']; exact ha) (by rw [hqr])
      hroom hset, show q.asm = a by rw [hqr], closeWrites_eq hfirst hcurrent, hhanded]
    obtain ⟨hpart, hreq⟩ := settle_handsOver (s := s) (n := n) (r := { q with asm := a, closeNext := 16 })
      (p := placedAll (closeWrites s n f b a) s.port) (w := ⟨.handOver, f, r.asm.blockCount, n.val, 2, none⟩) hr ho hw
    refine ⟨_, rfl, ?_, hreq.trans (portRequests_placedAll _ _)⟩
    rw [hqr, ← hg] at hpart ⊢
    exact hpart

end Sys2Proof.Receivers

/-! SUPPORT. The parse of a header character, and the gap step. -/

namespace Sys2Proof.Machine

variable {s e t : State} {n : LineNo} {r : Receiver} {p : StorePort}

/-! ## The header (R69 to R72) -/

/-- The parse of a character that is not LF (R69, R70). -/
def parsed (h : HeldSetup) (c : Code) (a : Assembly) : Assembly :=
  if c = h.ltrs ∨ c = h.figs ∨ c = h.space ∨ c = h.cr then a else parseToken h c a

theorem parsed_passed {h : HeldSetup} {c : Code} {a : Assembly}
    (hc : c = h.ltrs ∨ c = h.figs ∨ c = h.space ∨ c = h.cr ∨ a.stage = .done) : parsed h c a = a := by
  unfold parsed
  split
  · rfl
  · next hn =>
    have hdone : a.stage = .done := by
      push Not at hn
      obtain ⟨h1, h2, h3, h4⟩ := hn
      simpa [h1, h2, h3, h4] using hc
    unfold parseToken
    rw [hdone]

theorem findIdx?_of_first {l : List Code} {c : Code} {k : Nat} (hk : l[k]? = some c)
    (hfirst : ∀ j, j < k → l[j]? ≠ some c) : l.findIdx? (fun p => p == c) = some k := by
  obtain ⟨hlt, hget⟩ := List.getElem?_eq_some_iff.1 hk
  refine List.findIdx?_eq_some_iff_getElem.2 ⟨hlt, by simpa using hget, fun j hj hjc => ?_⟩
  refine hfirst j hj ?_
  rw [List.getElem?_eq_getElem (hj.trans hlt)]
  exact congrArg some (eq_of_beq hjc)

theorem parseToken_precedence {h : HeldSetup} {c : Code} {a : Assembly} (hs : a.stage = .precedence) {k : Nat}
    (hk : h.precedence[k]? = some c) (hfirst : ∀ j, j < k → h.precedence[j]? ≠ some c) :
    parseToken h c a = { a with cls := k, stage := .stations } := by
  unfold parseToken
  rw [hs]
  dsimp only
  rw [findIdx?_of_first hk hfirst]

theorem parseToken_unknown {h : HeldSetup} {c : Code} {a : Assembly} (hs : a.stage = .precedence) (hc : c ∉ h.precedence) :
    parseToken h c a = { a with cls := 2, headerFault := true, stage := .stations } := by
  have hnone : h.precedence.findIdx? (fun p => p == c) = none := by
    refine List.findIdx?_eq_none_iff.2 fun x hx => ?_
    simpa using fun heq : x = c => hc (heq ▸ hx)
  unfold parseToken
  rw [hs]
  dsimp only
  rw [hnone]

/-- The parse is the one that the rules give. -/
theorem parsed_of_rule {h : HeldSetup} {c : Code} {a p : Assembly} (hp : Parsed h c a p) : parsed h c a = p := by
  obtain ⟨hc, hpa⟩ | ⟨⟨h1, h2, h3, h4⟩, htoken⟩ := hp
  · exact (parsed_passed hc).trans hpa.symm
  · have hparsed : parsed h c a = parseToken h c a := by
      unfold parsed
      rw [if_neg (by simp [h1, h2, h3, h4])]
    rw [hparsed]
    obtain ⟨hs, ⟨k, hk, hfirst, hpa⟩ | ⟨hc, hpa⟩⟩ | ⟨hs, hheld, hpa⟩ | ⟨hs, t, hheld, hpair⟩ := htoken
    · exact (parseToken_precedence hs hk hfirst).trans hpa.symm
    · exact (parseToken_unknown hs hc).trans hpa.symm
    · rw [hpa]
      unfold parseToken
      rw [hs, hheld]
    · unfold parseToken
      rw [hs, hheld]
      dsimp only
      obtain ⟨ho, hpa⟩ | ⟨ho, hlen, hpa⟩ | ⟨ho, hlen, hpa⟩ := hpair
      · simp only [hpa, ho, hs]
      · obtain ⟨x, hx⟩ := Option.ne_none_iff_exists'.1 ho
        simp only [hpa, hx, hs, hlen, if_true]
      · obtain ⟨x, hx⟩ := Option.ne_none_iff_exists'.1 ho
        simp only [hpa, hx, hs, if_neg (Nat.not_lt.2 hlen)]

/-- The parse keeps what the close of a message reads. -/
theorem parsed_fields (h : HeldSetup) (c : Code) (a : Assembly) : (parsed h c a).headerCount = a.headerCount ∧
    (parsed h c a).first = a.first ∧ (parsed h c a).current = a.current ∧ (parsed h c a).blockCount = a.blockCount ∧
    (parsed h c a).incomplete = a.incomplete ∧ (parsed h c a).awaiting = a.awaiting := by
  unfold parsed parseToken
  split
  · exact ⟨rfl, rfl, rfl, rfl, rfl, rfl⟩
  · repeat' split
    all_goals exact ⟨rfl, rfl, rfl, rfl, rfl, rfl⟩

/-- The assembly with one character more counted in the header. -/
def countedAsm (a : Assembly) : Assembly := { a with headerCount := a.headerCount + 1 }

theorem headerCharacter_lf {h : HeldSetup} {c : Code} (hc : c = h.lf) :
    headerCharacter h c r = { r with state := .text, asm := endHeader (countedAsm r.asm) } := by
  unfold headerCharacter
  dsimp only
  rw [if_pos hc]
  rfl

theorem headerCharacter_below {h : HeldSetup} {c : Code} (hc : c ≠ h.lf) (hl : r.asm.headerCount + 1 < 48) :
    headerCharacter h c r = { r with asm := parsed h c (countedAsm r.asm) } := by
  have hcount := (parsed_fields h c (countedAsm r.asm)).1
  unfold headerCharacter
  dsimp only
  rw [if_neg hc, if_neg]
  · rfl
  · show ¬ 48 ≤ (parsed h c (countedAsm r.asm)).headerCount
    rw [hcount]
    exact Nat.not_le.2 hl

theorem headerCharacter_last {h : HeldSetup} {c : Code} (hc : c ≠ h.lf) (hl : 48 ≤ r.asm.headerCount + 1) :
    headerCharacter h c r = { r with
      state := .text
      asm := { parsed h c (countedAsm r.asm) with
        cls := endedClass (parsed h c (countedAsm r.asm)), headerFault := true, stage := .done } } := by
  have hcount := (parsed_fields h c (countedAsm r.asm)).1
  unfold headerCharacter
  dsimp only
  rw [if_neg hc, if_pos]
  · rfl
  · show 48 ≤ (parsed h c (countedAsm r.asm)).headerCount
    rw [hcount]
    exact hl

theorem afterRx_header {h : HeldSetup} {c : Code} {under : Bool} {q : Receiver} (ht : r.state = .header)
    (hq : headerCharacter h c r = q) : afterRx h c under r =
    if windowPush q.window c = h.eom then closeByEom h under q else { q with window := windowPush q.window c } := by
  unfold afterRx
  rw [if_pos ht, hq]

/-! ## The gap step (R64) -/

/-- The assembly as an EOM closes it in its header (R72, R75). -/
def faultyAsm (a : Assembly) : Assembly :=
  { a with complete := true, autoRelease := true, headerFault := true, stage := .done, cls := endedClass a }

theorem closeByEom_header {h : HeldSetup} (hs : r.state = .header) : closeByEom h false r =
    { r with
      state := .closing, window := [], idleTimer := none, idleClose := false, closeNext := 0, asm := faultyAsm r.asm } := by
  unfold closeByEom
  rw [if_pos hs, if_pos hs, hs, show (RxState.header == RxState.header) = true from rfl, Bool.or_true]
  rfl

theorem endHeader_eq (a : Assembly) : endHeader a =
    { a with
      stage := .done, cls := if a.stage = .precedence then 2 else a.cls
      headerFault := a.headerFault || decide (a.stage = .precedence ∨ a.heldToken ≠ none ∨ a.dests = []) } := by
  have hfault : (a.headerFault || a.stage == .precedence || a.heldToken.isSome || a.dests.isEmpty) =
      (a.headerFault || decide (a.stage = .precedence ∨ a.heldToken ≠ none ∨ a.dests = [])) := by
    rw [Bool.eq_iff_iff]
    simp [Option.isSome_iff_ne_none, or_assoc]
  unfold endHeader
  rw [hfault]
  rfl

/-- A take whose character has a gap before it, the gap step having left the receiver able to take it. -/
theorem takeEntry_gap {e : FifoEntry} {rest : List FifoEntry} {q : Receiver} {p' : StorePort} (hf : r.fifo = e :: rest)
    (hg : e.gapBefore = true) (hgap : rxContinue rxRounds n (rxAt n (gapStep r) p s) = rxAt n q p' s) (hm : MayTake n s q) :
    takeEntry n (rxAt n r p s) =
      if q.state = .hunting then takeHunting n e (rxAt n q p' s) else takeMessage n e (rxAt n q p' s) := by
  have hmay : mayTake (isStarved (rxAt n q p' s) n) q = true := hm.mayTake
  unfold takeEntry
  simp only [Fin.getElem_fin, rxAt_line, hf, hg, if_true, updRx_rxAt, hgap, hmay]

/-- A take whose character must wait for the Store Port after the gap step. -/
theorem takeEntry_gapWaits {e : FifoEntry} {rest : List FifoEntry} {q : Receiver} {x : Req} {p' : StorePort}
    (hf : r.fifo = e :: rest) (hg : e.gapBefore = true)
    (hgap : rxContinue rxRounds n (rxAt n (gapStep r) p s) = rxAt n q p' s) (hu : q.unplaced = some x) :
    takeEntry n (rxAt n r p s) = rxAt n q p' s := by
  have hmay : mayTake (isStarved (rxAt n q p' s) n) q = false := by
    unfold mayTake
    simp [hu]
  unfold takeEntry
  simp only [Fin.getElem_fin, rxAt_line, hf, hg, if_true, updRx_rxAt, hgap, hmay, Bool.false_eq_true, if_false]

theorem gapStep_hunting (h : r.state = .hunting) {e : FifoEntry} {rest : List FifoEntry} (hf : r.fifo = e :: rest) :
    gapStep r = { r with window := [], fifo := { e with gapBefore := false } :: rest } := by
  unfold gapStep
  dsimp only
  rw [if_neg (by simp [h]), hf]
  rfl

theorem gapStep_message (h : r.state = .header ∨ r.state = .text) {e : FifoEntry} {rest : List FifoEntry}
    (hf : r.fifo = e :: rest) : gapStep r = { r with
      window := [], fifo := { e with gapBefore := false } :: rest
      asm := { r.asm with mutilated := true, awaiting := if truncating r then r.asm.awaiting else [Config.lost] } } := by
  unfold gapStep
  dsimp only
  rw [if_pos h, hf]
  rfl

/-- A short window is not a pattern of four. -/
theorem windowPush_short {c : Code} {w : List Code} (h : w.length = 4) : windowPush [] c ≠ w := fun heq => by
  rw [← heq] at h
  exact absurd h (by decide : (1 : Nat) ≠ 4)

end Sys2Proof.Machine

namespace Sys2Proof.Receivers
open Sys2Proof.Machine

/-- Settles O60: the header character by character, and the gap step before a character. -/
theorem takeHeader : Obligations.TakeHeader := by
  refine ⟨fun s n e rest win b a r byte hq hs hst ha hu hf hg hi hw hc hb hwin hroom has hrs hbs => ?_,
    fun s n e rest r hq hs ha hu hf hg hsom heom hi hrs => ?_⟩
  · simp only [Fin.getElem_fin] at *
    have hm : MayTake n s s.lines[n.val].rx := ⟨hs, ha, hu, .inr (.inl hst), by rw [hf]; exact List.cons_ne_nil _ _⟩
    have hexec := exec_take hm hq.1 hf hg (hi.imp_right .inl)
    rw [if_neg (by rw [hst]; exact RxState.noConfusion)] at hexec
    rw [hexec]
    generalize hr : s.lines[n.val].rx = q at *
    have hrest : q.fifo.tail = rest := by rw [hf]; rfl
    have hpush : windowPush q.window e.code = win := (windowPush_eq hw).trans hwin.symm
    clear hf hwin hexec
    subst hrest
    have hbyte : byteOf s n q.asm (e.code.setWidth 8) = byte := by
      unfold byteOf
      rw [hc, hbs]
      rfl
    have hcounted : countedAsm (storedRx (popEntry e q)).asm = a := has.symm
    have hstored : (storedRx (popEntry e q)).state = .header := hst
    have hbody : takeMessage n e (rxAt n q s.port s) = rxContinue rxRounds n
        (rxAt n (afterRx s.office.held e.code false (storedRx (popEntry e q))) (placedPort byte s.port) s) := by
      rw [takeMessage_stores (truncating_false (.inl hst)) (needsBlock_false hb) hm, storeAndAfter hroom, hbyte]
    have hplaces : ∀ g : Receiver, g.asm.awaiting = [] → g.state ≠ .closing →
        afterRx s.office.held e.code false (storedRx (popEntry e q)) = g →
        ∃ t, Host.Outcome.next (settle (rxContinue rxRounds n
            (rxAt n (afterRx s.office.held e.code false (storedRx (popEntry e q))) (placedPort byte s.port) s))) =
            (.next t : Host.Outcome State Fault Refusal) ∧
          requests t = requests s ++ [byte] ∧
          SamePart { s with lines := s.lines.set n { s.lines[n.val] with rx := g } } t := fun g hg' hst' hafter => by
      rw [hafter, rxContinue_still hg' hst']
      obtain ⟨hpart, hreq, -⟩ := settle_rxAt_line (n := n) (p := placedPort byte s.port) hq (rfl : g = g)
      exact ⟨_, rfl, hreq.trans (portRequests_placed _ _), hpart⟩
    rw [hbody]
    have hopen : ∀ g : Receiver, headerCharacter s.office.held e.code (storedRx (popEntry e q)) = g → g.window = q.window →
        win ≠ s.office.held.eom →
        afterRx s.office.held e.code false (storedRx (popEntry e q)) = { g with window := win } := fun g hg' hwindow hne => by
      rw [afterRx_header hstored hg', hwindow, hpush, if_neg hne]
    refine ⟨fun hne hlf => ?_, fun p hlf hp => ?_⟩
    · rw [hrs]
      refine hplaces _ ?_ RxState.noConfusion ((hopen _ (headerCharacter_lf hlf) rfl hne).trans ?_)
      · rw [has]
        exact ha
      · rw [hcounted, endHeader_eq]
        rfl
    · obtain ⟨hcount, hfirst, hcurrent, hblocks, hincomplete, hawaiting⟩ := parsed_fields s.office.held e.code a
      rw [parsed_of_rule hp] at hcount hfirst hcurrent hblocks hincomplete hawaiting
      have hparsed : parsed s.office.held e.code (countedAsm (storedRx (popEntry e q)).asm) = p := by
        rw [hcounted]
        exact parsed_of_rule hp
      have hawait : p.awaiting = [] := by
        rw [hawaiting, has]
        exact ha
      have hbelow : a.headerCount < 48 →
          headerCharacter s.office.held e.code (storedRx (popEntry e q)) = { storedRx (popEntry e q) with asm := p } :=
        fun hl => by
          rw [headerCharacter_below hlf (by rw [has] at hl; exact hl), hparsed]
      refine ⟨fun hne hl => ?_, fun hne hl => ?_, fun f heq hl hwalk hf hinc hset hroom17 => ?_⟩
      · rw [hrs]
        refine hplaces _ hawait ?_ ((hopen _ (hbelow hl) rfl hne).trans rfl)
        show q.state ≠ .closing
        rw [hst]
        exact RxState.noConfusion
      · rw [hrs]
        refine hplaces _ hawait RxState.noConfusion
          ((hopen _ (headerCharacter_last hlf (by rw [has] at hl; exact hl)) rfl hne).trans ?_)
        rw [hparsed]
        rfl
      · obtain ⟨g, hgr⟩ : ∃ g : Receiver, g = { r with
          state := .closing, window := [], idleTimer := none, idleClose := false, closeNext := 0, asm := faultyAsm p } := ⟨_, rfl⟩
        have hafter : afterRx s.office.held e.code false (storedRx (popEntry e q)) = g := by
          rw [afterRx_header hstored (hbelow hl), hgr, hrs]
          exact (if_pos (hpush.trans heq)).trans (closeByEom_header (by exact hst))
        have hfirst' : (faultyAsm p).first = some f := hfirst.trans hf
        have hcurrent' : (faultyAsm p).current = some b := hcurrent.trans (by rw [has]; exact hc)
        have hhanded : ∀ u, handedOff n (faultyAsm p) u = askWalk ⟨.handOver, f, a.blockCount, n.val, 1, none⟩ u := fun u => by
          unfold handedOff handOverOfAssembly
          rw [if_neg (by show ¬ p.incomplete = true; rw [hincomplete, hinc]; exact Bool.false_ne_true),
            if_pos (show (faultyAsm p).headerFault = true from rfl), hfirst']
          show askWalk ⟨.handOver, f, p.blockCount, n.val, 1, none⟩ u = _
          rw [hblocks]
        have hunplaced : g.unplaced = none := by
          rw [hgr, hrs]
          exact hu
        rw [hafter, rxContinue_handsOff (r := g) hs (by rw [hgr]) hunplaced (by rw [hgr]; exact hawait) (by rw [hgr])
          (PortRoom.placed (k := 16) hroom17 _) hset, show g.asm = faultyAsm p by rw [hgr], closeWrites_eq hfirst' hcurrent',
          hhanded]
        obtain ⟨hpart, hreq⟩ := settle_handsOver (s := s) (n := n) (r := { g with asm := faultyAsm p, closeNext := 16 })
          (p := placedAll (closeWrites s n f b (faultyAsm p)) (placedPort byte s.port))
          (w := ⟨.handOver, f, a.blockCount, n.val, 1, none⟩) hq.1 hq.2.2 hwalk
        refine ⟨_, rfl, hreq.trans ?_, ?_⟩
        · rw [portRequests_placedAll, portRequests_placed, List.append_assoc]
          rfl
        · rw [hgr] at hpart ⊢
          exact hpart
  · simp only [Fin.getElem_fin] at *
    have hexec : s.lines[n.val].rx.state = .hunting ∨ s.lines[n.val].rx.state = .header ∨ s.lines[n.val].rx.state = .text →
        exec (.receiverTake n) s = .next (settle (takeEntry n (rxAt n s.lines[n.val].rx s.port s))) := fun hst => by
      rw [rxAt_self]
      exact execReceiverTake_due ⟨hs, ha, hu, hst, by rw [hf]; exact List.cons_ne_nil _ _⟩ hq.1 (hi.imp_right .inl)
    generalize hr : s.lines[n.val].rx = q at *
    obtain ⟨e', he⟩ : ∃ e' : FifoEntry, e' = { e with gapBefore := false } := ⟨_, rfl⟩
    refine ⟨fun hst => ?_, fun hst hlen => ?_, fun b hst hc hlen hb hroom => ?_, fun b hst hc hb hwait hn => ?_⟩
    · obtain ⟨g, hgr⟩ : ∃ g, g = gapStep q := ⟨_, rfl⟩
      have hgap := hgr.trans (gapStep_hunting hst hf)
      have hstill : rxContinue rxRounds n (rxAt n (gapStep q) s.port s) = rxAt n g s.port s := by
        rw [← hgr]
        exact rxContinue_still (by rw [hgap]; exact ha) (by rw [hgap]; exact (by rw [hst]; exact RxState.noConfusion))
      have hm : MayTake n s g := by
        rw [hgap]
        exact ⟨hs, ha, hu, .inl hst, List.cons_ne_nil _ _⟩
      rw [hexec (.inl hst), takeEntry_gap hf hg hstill hm, if_pos (by rw [hgap]; exact hst), takeHunting_at, hgap,
        if_neg (by exact windowPush_short hsom), settle_rxAt_still hq, hrs]
      rfl
    · obtain ⟨g, hgr⟩ : ∃ g, g = gapStep q := ⟨_, rfl⟩
      have hgap := hgr.trans (gapStep_message (.inr hst) hf)
      rw [truncating_true hst hlen, if_pos rfl] at hgap
      have htext : g.state = .text := by rw [hgap]; exact hst
      have hawait : g.asm.awaiting = [] := by rw [hgap]; exact ha
      have hstill : rxContinue rxRounds n (rxAt n (gapStep q) s.port s) = rxAt n g s.port s := by
        rw [← hgr]
        exact rxContinue_still hawait (by rw [htext]; exact RxState.noConfusion)
      have hm : MayTake n s g := ⟨hs, hawait, by rw [hgap]; exact hu, .inr (.inr htext), by rw [hgap]; exact List.cons_ne_nil _ _⟩
      rw [hexec (.inr (.inr hst)), takeEntry_gap hf hg hstill hm, if_neg (by rw [htext]; exact RxState.noConfusion),
        takeMessage_truncating (truncating_true htext (by rw [hgap]; exact hlen)), afterStore_at,
        afterRx_text (by exact htext), if_neg (by rw [hgap]; exact windowPush_short heom),
        rxContinue_still (by exact hawait) (by exact fun h => RxState.noConfusion (htext.symm.trans h)), settle_rxAt_still hq, hgap, hrs]
      rfl
    · obtain ⟨g, hgr⟩ : ∃ g, g = gapStep q := ⟨_, rfl⟩
      have hgap := hgr.trans (gapStep_message (.inr hst) hf)
      rw [truncating_false (.inr (by omega)), if_neg Bool.false_ne_true] at hgap
      have hodd : ((q.asm.storedLength + 1) % 2 == 1) = (q.asm.storedLength % 2 == 0) := by
        rw [Bool.eq_iff_iff, beq_iff_eq, beq_iff_eq]
        omega
      have hbelow : chainIndex q.asm.storedLength ≤ chainIndex (q.asm.storedLength + 1) := by
        unfold chainIndex
        split <;> split <;> omega
      have htext : (filledRx 1 g).state = .text := by rw [hgap]; exact hst
      obtain ⟨p, hpr⟩ : ∃ p, p = placedPort (byteReq (blockWord s b (textWord q.asm.storedLength))
          (q.asm.storedLength % 2 == 1) 64 (.receiver n) .rxByte) s.port := ⟨_, rfl⟩
      have hstill : rxContinue rxRounds n (rxAt n (gapStep q) s.port s) = rxAt n (filledRx 1 g) p s := by
        rw [← hgr, show rxRounds = 31 + [Config.lost].length from rfl,
          rxContinue_stores (bs := [Config.lost]) hs (by rw [hgap]; exact hu) (by rw [hgap]) (fun i hi => by
            have hi0 : i = 0 := Nat.lt_one_iff.1 hi
            rw [hgap, hi0]
            exact Nat.lt_of_le_of_lt hbelow hb) (PortRoom.mono hroom (by decide)), rxContinue_still rfl
          (by exact fun h => RxState.noConfusion (htext.symm.trans h)), hpr, hgap, bytesOf, hc]
        rfl
      have hm : MayTake n s (filledRx 1 g) := ⟨hs, rfl, by rw [hgap]; exact hu, .inr (.inr htext), by
        rw [hgap]; exact List.cons_ne_nil _ _⟩
      have hroom1 : PortRoom 1 p := hpr ▸ PortRoom.placed (k := 1) hroom _
      rw [hexec (.inr (.inr hst)), takeEntry_gap hf hg hstill hm, if_neg (by rw [htext]; exact RxState.noConfusion),
        takeMessage_stores (truncating_false (.inr (by rw [hgap]; exact hlen))) (needsBlock_false (by rw [hgap]; exact hb)) hm,
        storeAndAfter hroom1, afterRx_text (by exact htext), if_neg (by rw [hgap]; exact windowPush_short heom),
        rxContinue_still rfl (by exact fun h => RxState.noConfusion (htext.symm.trans h))]
      obtain ⟨hpart, hreq, -⟩ := settle_rxAt_line (n := n)
        (p := placedPort (byteOf s n (filledRx 1 g).asm (e.code.setWidth 8)) p) hq
        (show ({ storedRx (popEntry e (filledRx 1 g)) with
            window := windowPush (storedRx (popEntry e (filledRx 1 g))).window e.code } : Receiver) = { r with
          asm := { q.asm with mutilated := true, storedLength := q.asm.storedLength + 2 } } by
          rw [hgap, hrs]
          refine congrArg (fun a => ({ q with
            fifo := rest, noise := e.noise, closePoint := q.closePoint - 1, window := [e.code], asm := a } : Receiver)) ?_
          exact congrArg (fun w => ({ q.asm with
            mutilated := true, storedLength := q.asm.storedLength + 2, awaiting := w } : Assembly)) ha.symm)
      refine ⟨_, rfl, hpart, hreq.trans ?_⟩
      have hbyte : byteOf s n (filledRx 1 g).asm (e.code.setWidth 8) =
          byteReq (blockWord s b (textWord (q.asm.storedLength + 1))) (q.asm.storedLength % 2 == 0) (e.code.setWidth 8)
            (.receiver n) .rxByte := by
        rw [← hodd, hgap]
        unfold byteOf filledRx
        dsimp only
        rw [hc]
        rfl
      rw [portRequests_placed, hbyte, hpr, portRequests_placed, List.append_assoc]
      rfl
    · obtain ⟨g, hgr⟩ : ∃ g, g = gapStep q := ⟨_, rfl⟩
      have hgap := hgr.trans (gapStep_message (hst.imp_right And.left) hf)
      rw [truncating_false (hst.imp_right And.right), if_neg Bool.false_ne_true] at hgap
      obtain ⟨byte, hbyte⟩ : ∃ x, x = byteReq (blockWord s b (textWord q.asm.storedLength)) (q.asm.storedLength % 2 == 1) 64
        (.receiver n) .rxByte := ⟨_, rfl⟩
      obtain ⟨g', hgr'⟩ : ∃ g' : Receiver, g' = { q with
        fifo := { e with gapBefore := false } :: rest, window := []
        asm := { q.asm with mutilated := true, storedLength := q.asm.storedLength + 1 }
        unplaced := some byte } := ⟨_, rfl⟩
      have hwaits : rxContinue rxRounds n (rxAt n (gapStep q) s.port s) = rxAt n g' (waitingPort (.receiver n) s.port) s := by
        have hreq : byteOf s n g.asm Config.lost = byte := by
          rw [hgap, hbyte]
          unfold byteOf
          dsimp only
          rw [hc]
          rfl
        have hlast : { storedRx { g with asm := { g.asm with awaiting := [] } } with unplaced := some byte } = g' := by
          rw [hgap, hgr']
          exact congrArg (fun w => ({ q with
            fifo := { e with gapBefore := false } :: rest, window := []
            asm := { q.asm with mutilated := true, storedLength := q.asm.storedLength + 1, awaiting := w }
            unplaced := some byte } : Receiver)) ha.symm
        rw [← hgr, show rxRounds = 31 + 1 from rfl, rxContinue_step (rxWork_byte (b := Config.lost) (rest := []) hs
          (by rw [hgap]; exact hu) (by rw [hgap]) (by rw [hgap]; exact needsBlock_false hb)), storeByte_waits _ hwait,
          show byteOf s n ({ g with asm := { g.asm with awaiting := [] } } : Receiver).asm Config.lost = byte from hreq, hlast]
        exact rxContinue_rests (rxWork_waits (q := byte) (by rw [hgr']))
      rw [hexec (.inr (hst.imp_right And.left)), takeEntry_gapWaits (x := byte) hf hg hwaits (by rw [hgr'])]
      obtain ⟨hpart, hreq, hwaiting⟩ := settle_rxAt_line (n := n) (p := waitingPort (.receiver n) s.port) hq (rfl : g' = g')
      refine ⟨_, rfl, hwaiting.trans (waitingPort_waiting hn), hreq.trans (portRequests_waiting _ _), ?_⟩
      rw [hgr', hbyte] at hpart ⊢
      exact hpart

end Sys2Proof.Receivers

/-! SUPPORT. The answer check, and what follows a member that has answered. -/

namespace Sys2Proof.Machine

variable {s e t : State} {n : LineNo}

/-- The answer window takes a code as R152 says. -/
theorem answerPush_eq {w : List Code} {c : Code} (h : w.length ≤ 2) :
    answerPush w c = (w ++ [c]).drop ((w ++ [c]).length - 2) := by
  unfold answerPush
  dsimp only
  split
  · next hlt =>
    have hlen : (w ++ [c]).length - 2 = 1 := by
      rw [List.length_append, List.length_singleton] at hlt ⊢
      omega
    rw [hlen, List.drop_one]
  · next hlt =>
    rw [Nat.sub_eq_zero_of_le (Nat.not_lt.1 hlt), List.drop_zero]

/-- The codes that call member `m` answer for it (R152). -/
def answerCodes (m : Member) : List Code := [m.callCode.extractLsb' 5 5, m.callCode.extractLsb' 0 5]

section
variable {h : Hand} {pos : Nat} {c : Code} {framing : Bool} {tx : Transmitter}
variable (htx : s.lines[n.val].tx = tx) (hs : tx.state = .answerWait) (hh : tx.hand = some h) (hp : tx.callPos = some pos)
include htx hs hh hp

theorem answerCheck_framing : answerCheck n c true s = updTx n (fun t => { t with answerWindow := [] }) s := by
  unfold answerCheck
  simp only [Fin.getElem_fin, htx, hs, hh, hp, if_true]

theorem answerCheck_passed (hc : c = s.office.held.ltrs ∨ c = s.office.held.figs) : answerCheck n c false s = s := by
  unfold answerCheck
  simp only [Fin.getElem_fin, htx, hs, hh, hp, Bool.false_eq_true, if_false]
  rw [if_pos hc]

/-- A code that joins the window answers for the member called, or does not. -/
theorem answerCheck_joins {m : Member} (hl : c ≠ s.office.held.ltrs) (hf : c ≠ s.office.held.figs)
    (hm : h.callSet[pos - 1]? = some m) : answerCheck n c false s =
      if answerPush tx.answerWindow c = answerCodes m then nextMember n h pos (setAnswered h.number pos s)
      else updTx n (fun t => { t with answerWindow := answerPush tx.answerWindow c }) s := by
  unfold answerCheck
  simp only [Fin.getElem_fin, htx, hs, hh, hp, Bool.false_eq_true, if_false]
  rw [if_neg (by simp [hl, hf]), hm]
  rfl

end

theorem nextMember_calls {h : Hand} {pos : Nat} {m : Member} (hm : h.callSet[pos]? = some m) :
    nextMember n h pos s = enterCalling n (pos + 1) m s := by
  unfold nextMember
  rw [hm]

theorem nextMember_ends {h : Hand} {pos : Nat} (hm : h.callSet[pos]? = none) : nextMember n h pos s = endCallSet n h s := by
  unfold nextMember
  rw [hm]

theorem endCallSet_answered {h : Hand} (ha : s.du.entries[h.number].callSet.all (fun m => m.answered) = true) :
    endCallSet n h s = enterSending n h s := by
  unfold endCallSet
  exact if_pos ha

theorem modify_at_length (f : Member → Member) (front : List Member) (x : Member) (back : List Member) :
    (front ++ x :: back).modify front.length f = front ++ f x :: back := by
  induction front with
  | nil => rfl
  | cons y front ih =>
    rw [List.cons_append, List.length_cons, List.modify_succ_cons, ih]
    rfl

/-- The Delivery Unit with the answered flag of one member set (R153). -/
theorem setAnswered_at {d : DeliveryNo} {pos : Nat} {front back : List Member} {x : Member}
    (hc : s.du.entries[d].callSet = front ++ x :: back) (hl : front.length = pos - 1) : setAnswered d pos s =
      { s with du := { s.du with entries := s.du.entries.set d { s.du.entries[d] with
          callSet := front ++ { x with answered := true } :: back } } } := by
  have hmod : s.du.entries[d].callSet.modify (pos - 1) (fun m => { m with answered := true }) =
      front ++ { x with answered := true } :: back := by
    rw [hc, ← hl]
    exact modify_at_length _ _ _ _
  exact congrArg (fun c => { s with du := { s.du with entries := s.du.entries.set d { s.du.entries[d] with callSet := c } } })
    hmod

theorem completeCharacter_settled {c : Code} {noise framing lastMark : Bool}
    (h : (answerCheck n c framing e).lines[n.val].settingsPending = false)
    (he : e = updLine n (fun l => receiveCharacter c noise framing (completeSampler c noise framing lastMark l)) s) :
    completeCharacter n c noise framing lastMark s = answerCheck n c framing e := by
  subst he
  exact checkIdlePoint_settled h

end Sys2Proof.Machine

namespace Sys2Proof.Samplers
open Sys2Proof.Machine

/-- Settles O26: the window, and the member that has answered. -/
theorem answerCheck : Obligations.AnswerCheck := by
  intro s e n c noise framing lastMark h pos m win hq hs hpend hh hp hm he hwin hlen
  have hline : e.lines[n.val].tx = s.lines[n.val].tx ∧ e.lines[n.val].settingsPending = false := by
    rw [he, updLine_line, receiveCharacter_tx, receiveCharacter_settingsPending]
    exact ⟨rfl, hpend⟩
  obtain ⟨htx, hpend'⟩ := hline
  have hqe : Quiet e := by
    rw [he]
    exact hq
  have hoffice : e.office = s.office := by rw [he]; rfl
  have hexec : ∀ u, Machine.answerCheck n c framing e = u → u.lines[n.val].settingsPending = false →
      exec (.characterCompletion n c noise framing lastMark) s = .next (settle u) := fun u hu hset => by
    have hbody : completeCharacter n c noise framing lastMark s = u := by
      rw [← hu] at hset
      exact (completeCharacter_settled hset he).trans hu
    rw [← hbody]
    exact lineEvent_due hq.1 (enabled_iff.2 (by rw [hs]; exact TxState.noConfusion))
  have hpush : answerPush s.lines[n.val].tx.answerWindow c = win := (answerPush_eq hlen).trans hwin.symm
  refine ⟨fun hf => ?_, fun hf hc => ?_, fun hf hl hg hne => ?_, fun hf hl hg heq hset hpos hentry => ?_,
    fun next x front back hf hl hg heq hnext hentry hfront => ?_⟩
  · subst hf
    rw [hexec _ (answerCheck_framing htx hs hh hp) (by rw [updTx_line]; exact hpend'), settle_quiet (by exact hqe)]
  · subst hf
    rw [hexec _ (answerCheck_passed htx hs hh hp (by rw [hoffice]; exact hc)) hpend', settle_quiet hqe]
  · subst hf
    have hbody := answerCheck_joins htx hs hh hp (c := c) (by rw [hoffice]; exact hl) (by rw [hoffice]; exact hg) hm
    rw [hpush, if_neg (by exact hne)] at hbody
    rw [hexec _ hbody (by rw [updTx_line]; exact hpend'), settle_quiet (by exact hqe)]
  · subst hf hpos
    have hbody := answerCheck_joins htx hs hh hp (c := c) (by rw [hoffice]; exact hl) (by rw [hoffice]; exact hg) hm
    have hdu : e.du = s.du := by rw [he]; rfl
    have hanswered := setAnswered_at (s := e) (d := h.number) (pos := 1) (front := []) (back := []) (x := m)
      (by rw [hdu]; exact hentry) rfl
    obtain ⟨v, hv⟩ : ∃ v, v = setAnswered h.number 1 e := ⟨_, rfl⟩
    have hentry' : v.du.entries[h.number].callSet = [{ m with answered := true }] := by
      rw [hv, hanswered]
      simp
    obtain ⟨tx, p, hframe, htx'⟩ := enterSending_frame n h v
    have hend : Machine.answerCheck n c false e = { updTx n tx v with port := p } := by
      rw [hbody, hpush, if_pos (by exact heq), nextMember_ends (by rw [hset]; rfl), ← hv,
        endCallSet_answered (by rw [hentry']; rfl), hframe]
    have hvline : v.lines = e.lines := by rw [hv]; rfl
    have hqv : Quiet v := by rw [hv]; exact hqe
    have hpart : SamePart (updTx n tx v) (settle { updTx n tx v with port := p }) := settle_port (quiet_updTx tx hqv)
    have hlines : (settle { updTx n tx v with port := p }).lines[n.val].tx = tx v.lines[n.val].tx := by
      rw [hpart.lines, updTx_line]
    refine ⟨_, hexec _ hend ?_, ?_, ?_, ?_, ?_, ?_, hpart.store.trans ?_, hpart.office.trans ?_, hpart.pool.trans ?_,
      hpart.walker.trans ?_⟩
    · show (updTx n tx v).lines[n.val].settingsPending = false
      rw [updTx_line, hvline]
      exact hpend'
    · rw [Fin.getElem_fin, hlines, htx']
      rfl
    · rw [Fin.getElem_fin, hlines, htx']
      rfl
    · rw [Fin.getElem_fin, hlines, htx']
      rfl
    · rw [Fin.getElem_fin, hlines, htx']
      rfl
    · rw [hpart.du]
      exact hentry'
    all_goals
      show _ = _
      rw [updTx, updLine_eq, hv, he]
      rfl
  · subst hf
    have hbody := answerCheck_joins htx hs hh hp (c := c) (by rw [hoffice]; exact hl) (by rw [hoffice]; exact hg) hm
    have hdu : e.du = s.du := by rw [he]; rfl
    rw [hpush, if_pos (by exact heq), nextMember_calls hnext, setAnswered_at (by rw [hdu]; exact hentry) hfront] at hbody
    rw [hexec _ hbody (by unfold enterCalling; rw [updTx_line]; exact hpend'), settle_quiet (by exact hqe)]
    unfold enterCalling
    rw [← hoffice, ← hdu]
    rfl

end Sys2Proof.Samplers

/-! SUPPORT. The issuer at the head of the waiting list gets its place, and goes on with its work at a bus that is taken. -/

namespace Sys2Proof.Machine

variable {s e t u v : State} {n : LineNo} {i : Issuer} {r : Req}

/-! ## An issuer that goes on while the bus is taken (R9) -/

/-- The bus is taken and the queue keeps its places. -/
abbrev BusyPort (p : StorePort) : Prop := p.cycle ≠ none ∧ p.queue.length ≤ Config.queuePlaces

/-- `t` comes of a Store Port `p` by issuer `i` going on at a bus that is taken: it waits exactly where it has kept a
request, and while others wait it places nothing. -/
structure WentOn (i : Issuer) (kept : Option Req) (p : StorePort) (t : State) : Prop where
  cycle : t.port.cycle = p.cycle
  fwd : t.port.fwd = p.fwd
  queue : p.queue <+: t.port.queue
  places : t.port.queue.length ≤ Config.queuePlaces
  waiting : t.port.waiting = p.waiting ++ (if kept = none then [] else [i])
  alone : p.waiting ≠ [] → t.port.queue = p.queue

/-- An issuer with no further request stops. -/
theorem WentOn.stops {kept : Option Req} {p : StorePort} (hb : BusyPort p) (hk : kept = none) (ht : t.port = p) :
    WentOn i kept p t := by
  subst ht
  exact ⟨rfl, rfl, List.prefix_refl _, hb.2, by rw [if_pos hk, List.append_nil], fun _ => rfl⟩

/-- An issuer with a further request that the queue does not take waits. -/
theorem WentOn.waits {kept : Option Req} {p : StorePort} (hb : BusyPort p) (hi : i ∉ p.waiting) (hk : kept ≠ none)
    (ht : t.port = waitingPort i p) : WentOn i kept p t := by
  have hport : t.port = { p with waiting := p.waiting ++ [i] } := by
    rw [ht]
    unfold waitingPort
    rw [if_neg (by simpa using hi)]
  refine ⟨by rw [hport], by rw [hport], by rw [hport], by rw [hport]; exact hb.2, ?_, fun _ => by rw [hport]⟩
  rw [hport, if_neg hk]

theorem placed_busy (hb : u.port.cycle ≠ none) (r : Req) :
    place r u = { u with port := { u.port with queue := u.port.queue ++ [r] } } := by
  rw [place_port, placedPort_busy hb]

section
variable {next : State → Option Req} {placed : State → State} (hport : ∀ u, (placed u).port = u.port)
variable (hnext : ∀ (u : State) (p : StorePort), next { u with port := p } = next u)
include hport hnext

/-- The requests of one issuer, one after another, at a bus that is taken. -/
theorem wentOn_pump {k : Nat} (hb : BusyPort u.port) (hi : i ∉ u.port.waiting)
    (hk : Config.queuePlaces < u.port.queue.length + k) :
    WentOn i (next (pump i next placed k u)) u.port (pump i next placed k u) := by
  induction k generalizing u with
  | zero => exact absurd hk (Nat.not_lt.2 hb.2)
  | succ k ih =>
    unfold pump
    split
    · next hn => exact .stops hb hn rfl
    · next r hr =>
      split
      · next ha =>
        obtain ⟨hlt, hempty⟩ : u.port.queue.length < Config.queuePlaces ∧ u.port.waiting = [] := by
          simpa [admits, and_comm] using ha
        have hbody : (placed (place r u)).port = { u.port with queue := u.port.queue ++ [r] } := by
          rw [hport, placed_busy hb.1]
        have hlen : (placed (place r u)).port.queue.length = u.port.queue.length + 1 := by
          rw [hbody]
          simp
        have hrest := ih (u := placed (place r u)) ⟨by rw [hbody]; exact hb.1, by rw [hlen]; exact hlt⟩
          (by rw [hbody]; exact hi) (by rw [hlen]; omega)
        exact ⟨hrest.cycle.trans (by rw [hbody]), hrest.fwd.trans (by rw [hbody]),
          (by rw [hbody]; exact List.prefix_append _ _ : u.port.queue <+: (placed (place r u)).port.queue).trans hrest.queue,
          hrest.places, hrest.waiting.trans (by rw [hbody]), fun h => absurd hempty h⟩
      · refine .waits hb hi ?_ (by rw [waitFor_port])
        rw [waitFor_port, hnext, hr]
        exact Option.some_ne_none r

/-- With the fuel of a pump the queue is full before the fuel is used up. -/
theorem wentOn_pumpFuel (hb : BusyPort u.port) (hi : i ∉ u.port.waiting) :
    WentOn i (next (pump i next placed pumpFuel u)) u.port (pump i next placed pumpFuel u) :=
  wentOn_pump hport hnext hb hi (by unfold pumpFuel; omega)

end

/-- An issuer that waits already stays where it is in the list. -/
theorem pump_waiting {next : State → Option Req} {placed : State → State} {k : Nat} (hi : i ∈ u.port.waiting) :
    pump i next placed k u = u := by
  cases k with
  | zero => rfl
  | succ k =>
    unfold pump
    split
    · rfl
    · rw [if_neg (by simp [admits_of_waiting (List.ne_nil_of_mem hi)]), waitFor_port]
      unfold waitingPort
      rw [if_pos (by simpa using hi)]

/-- What the placements of an issuer leave of the rest of the part. -/
theorem pump_keeps {P : State → Prop} {next : State → Option Req} {placed : State → State} {k : Nat}
    (hport : ∀ u p, P u → P { u with port := p }) (hplaced : ∀ u, P u → P (placed u)) (hu : P u) :
    P (pump i next placed k u) := by
  induction k generalizing u with
  | zero => exact hu
  | succ k ih =>
    unfold pump
    split
    · exact hu
    · split
      · rw [place_port]
        exact ih (hplaced _ (hport _ _ hu))
      · rw [waitFor_port]
        exact hport _ _ hu

theorem quiet_port (p : StorePort) (h : Quiet u) : Quiet { u with port := p } := h

/-- The Chain Walker's requests, one after another, at a bus that is taken. -/
theorem wentOn_pumpWalkerRounds {k : Nat} (hb : BusyPort u.port) (hi : Issuer.walker ∉ u.port.waiting)
    (ho : u.walker.offered = none) (hk : Config.queuePlaces < u.port.queue.length + k) :
    WentOn .walker (pumpWalkerRounds k u).walker.offered u.port (pumpWalkerRounds k u) := by
  induction k generalizing u with
  | zero => exact absurd hk (Nat.not_lt.2 hb.2)
  | succ k ih =>
    have hcontains : ¬ u.port.waiting.contains .walker = true := by simpa using hi
    unfold pumpWalkerRounds
    rw [if_neg hcontains]
    split
    · exact .stops hb ho rfl
    · next r hr =>
      split
      · next ha =>
        obtain ⟨hlt, hempty⟩ : u.port.queue.length < Config.queuePlaces ∧ u.port.waiting = [] := by
          simpa [admits, and_comm] using ha
        have hbody : (walkRequestPlaced r (place r u)).port = { u.port with queue := u.port.queue ++ [r] } := by
          rw [placed_busy hb.1]
          rfl
        have hoffered : (walkRequestPlaced r (place r u)).walker.offered = none := by
          unfold walkRequestPlaced updWalker
          dsimp only
          split <;> rfl
        have hlen : (walkRequestPlaced r (place r u)).port.queue.length = u.port.queue.length + 1 := by
          rw [hbody]
          simp
        have hrest := ih (u := walkRequestPlaced r (place r u)) ⟨by rw [hbody]; exact hb.1, by rw [hlen]; exact hlt⟩
          (by rw [hbody]; exact hi) hoffered (by rw [hlen]; omega)
        exact ⟨hrest.cycle.trans (by rw [hbody]), hrest.fwd.trans (by rw [hbody]),
          (by rw [hbody]; exact List.prefix_append _ _ :
            u.port.queue <+: (walkRequestPlaced r (place r u)).port.queue).trans hrest.queue,
          hrest.places, hrest.waiting.trans (by rw [hbody]), fun h => absurd hempty h⟩
      · refine .waits hb hi ?_ (by rw [waitFor_port]; rfl)
        rw [waitFor_port]
        exact Option.some_ne_none r

/-! ## A placement (R9) -/

/-- The request leaves its issuer as it is placed (R9, R32, R77, R104, R183). -/
def taken (i : Issuer) (r : Req) : State → State :=
  match i with
  | .receiver n => fun s => rxPlaced n r.purpose (updRx n (fun x => { x with unplaced := none }) s)
  | .transmitter n => updTx n (fun t => { t with out := t.out.tail, live := t.live + 1 })
  | .walker => walkRequestPlaced r
  | .delivery => rewritePlaced
  | .report => reportWordPlaced
  | .office => setupReadPlaced

/-- The issuer goes on with its work. -/
def goOn : Issuer → State → State
  | .receiver n => rxContinue rxRounds n
  | .transmitter n => pumpTx n
  | .walker => pumpWalker
  | .delivery => pumpDelivery
  | .report => pumpReport
  | .office => pumpOffice

/-- The machine with the request at the tail of the queue and the list of those that still wait. -/
def joined (rest : List Issuer) (r : Req) (s : State) : State :=
  { s with port := { s.port with waiting := rest, queue := s.port.queue ++ [r] } }

theorem placeWaiting_eq {rest : List Issuer} (hb : s.port.cycle ≠ none) (hw : s.port.waiting = i :: rest)
    (hk : keptRequest s i = some r) : placeWaiting s = goOn i (taken i r (joined rest r s)) := by
  have hplace : ∀ u : State, u.port = { s.port with waiting := rest } →
      place r u = { u with port := { s.port with waiting := rest, queue := s.port.queue ++ [r] } } := fun u hu => by
    rw [placed_busy (by rw [hu]; exact hb), hu]
  unfold placeWaiting
  rw [hw]
  unfold placeFor
  cases i with
  | receiver n =>
    have hkept : s.lines[n].rx.unplaced = some r := hk
    dsimp only [updPort]
    rw [hkept]
    dsimp only
    rw [hplace _ rfl]
    rfl
  | transmitter n =>
    obtain ⟨rs, hout⟩ : ∃ rs, s.lines[n].tx.out = r :: rs := List.head?_eq_some_iff.1 hk
    dsimp only [updPort]
    rw [hout]
    dsimp only
    rw [hplace _ rfl]
    refine congrArg (pumpTx n) ?_
    refine (updTx_congr (s := joined rest r s) (n := n) (f := fun t => { t with out := rs, live := t.live + 1 })
      (g := fun t => { t with out := t.out.tail, live := t.live + 1 }) ?_)
    exact congrArg (fun o : List Req => ({ s.lines[n.val].tx with out := o, live := s.lines[n.val].tx.live + 1 } : Transmitter))
      (congrArg List.tail hout).symm
  | walker =>
    have hkept : s.walker.offered = some r := hk
    dsimp only [updPort]
    rw [hkept]
    dsimp only
    rw [hplace _ rfl]
    rfl
  | delivery =>
    have hkept : nextRewrite (updPort (fun p => { p with waiting := rest }) s) = some r := hk
    dsimp only
    rw [hkept]
    dsimp only
    rw [hplace _ rfl]
    rfl
  | report =>
    have hkept : nextReportWord (updPort (fun p => { p with waiting := rest }) s) = some r := hk
    dsimp only
    rw [hkept]
    dsimp only
    rw [hplace _ rfl]
    rfl
  | office =>
    have hkept : nextSetupRead (updPort (fun p => { p with waiting := rest }) s) = some r := hk
    dsimp only
    rw [hkept]
    dsimp only
    rw [hplace _ rfl]
    rfl

theorem within_goOn (hi : i ≠ .office) : Within s (goOn i (taken i r s)) := by
  cases i with
  | receiver n =>
    have htaken : Within s (taken (.receiver n) r s) :=
      within_rxPlaced (within_updRx (.refl s) n (fun x => { x with unplaced := none }) (fun _ => Nat.le_refl _)) n r.purpose
    exact within_rxContinue htaken rxRounds n
  | transmitter n => exact within_pumpTx (within_updTx (.refl _) _ _) _
  | walker => exact within_pumpWalker (within_walkRequestPlaced (.refl _) _)
  | delivery => exact within_pumpDelivery (within_rewritePlaced (.refl _))
  | report => exact within_pumpReport (within_reportWordPlaced (.refl _))
  | office => exact absurd rfl hi

/-- What a placement leaves as it is, and what it does to the Store Port. -/
structure PlacedFrame (s t : State) : Prop where
  cycle : t.port.cycle = s.port.cycle
  fwd : t.port.fwd = s.port.fwd
  queue : s.port.queue <+: t.port.queue
  places : t.port.queue.length ≤ Config.queuePlaces
  store : t.store = s.store
  path : t.path = s.path
  router : t.router = s.router
  held : t.office.held = s.office.held
  pins : t.pins = s.pins

theorem PlacedFrame.within (h : PlacedFrame s u) (hb : u.port.cycle ≠ none) (k : Within u t) : PlacedFrame s t := by
  obtain ⟨hcycle, hfwd, hqueue⟩ := k.busy (Option.isSome_iff_ne_none.2 hb)
  exact ⟨hcycle.trans h.cycle, hfwd.trans h.fwd, h.queue.trans hqueue, k.queue h.places, k.store.trans h.store,
    k.path.trans h.path, k.router.trans h.router,
    ((congrArg OfficeControl.held k.office :) : t.office.held = u.office.held).trans h.held, k.pins.trans h.pins⟩

theorem PlacedFrame.refl (hq : s.port.queue.length ≤ Config.queuePlaces) : PlacedFrame s s :=
  ⟨rfl, rfl, List.prefix_refl _, hq, rfl, rfl, rfl, rfl, rfl⟩

theorem placedFrame_goOn {rest : List Issuer} (hb : BusyPort (joined rest r s).port) :
    PlacedFrame (joined rest r s) (goOn i (taken i r (joined rest r s))) := by
  by_cases ho : i = .office
  · subst ho
    by_cases hi : Issuer.office ∈ rest
    · have hgo : goOn .office (taken .office r (joined rest r s)) = taken .office r (joined rest r s) :=
        pump_waiting (u := taken .office r (joined rest r s)) hi
      rw [hgo]
      exact ⟨rfl, rfl, List.prefix_refl _, hb.2, rfl, rfl, rfl, rfl, rfl⟩
    · have hwent := wentOn_pumpFuel (next := nextSetupRead) (placed := setupReadPlaced)
        (u := taken .office r (joined rest r s)) (fun _ => rfl) (fun _ _ => rfl) hb hi
      obtain ⟨p, m, hbody⟩ := pumpOffice_eq pumpFuel (taken .office r (joined rest r s))
      have hgo : goOn .office (taken .office r (joined rest r s)) = _ := hbody
      rw [hbody] at hwent
      rw [hgo]
      exact ⟨hwent.cycle, hwent.fwd, hwent.queue, hwent.places, rfl, rfl, rfl, rfl, rfl⟩
  · exact (PlacedFrame.refl hb.2).within hb.1 (within_goOn ho)

/-! ## The waiting list after a placement -/

/-- The end of an event at a bus that is taken. -/
theorem eventEnd_busy (hb : s.port.cycle ≠ none) : (eventEnd s).port = s.port := by
  have hport : (eventEnd s).port = (startCycle s).port := rfl
  rw [hport, startCycle_taken hb]

theorem keptRequest_eventEnd (i : Issuer) (s : State) : keptRequest (eventEnd s) i = keptRequest s i := by
  rw [eventEnd_eq]
  cases i <;> rfl

/-- The issuers whose further requests are their own alone (R9). -/
abbrev Plain (i : Issuer) : Prop := (∀ n : LineNo, i ≠ .receiver n) ∧ i ≠ .delivery

theorem quiet_rewritten {u : State} (h : Quiet u) (p : StorePort) (o : OfficeControl) : Quiet { u with port := p, office := o } := h

theorem wentOn_goOn {rest : List Issuer} (hp : Plain i) (hb : BusyPort (joined rest r s).port) (hi : i ∉ rest) (hq : Quiet s) :
    WentOn i (keptRequest (goOn i (taken i r (joined rest r s))) i) (joined rest r s).port (goOn i (taken i r (joined rest r s))) ∧
      Quiet (goOn i (taken i r (joined rest r s))) := by
  have hqj : Quiet (joined rest r s) := hq
  cases i with
  | receiver n => exact absurd rfl (hp.1 n)
  | delivery => exact absurd rfl hp.2
  | transmitter n =>
    exact ⟨wentOn_pumpFuel (next := fun s => s.lines[n].tx.out.head?)
        (placed := updTx n (fun t => { t with out := t.out.tail, live := t.live + 1 }))
        (u := taken (.transmitter n) r (joined rest r s)) (fun _ => rfl) (fun _ _ => rfl) hb hi,
      pump_keeps (P := fun u => Quiet u) (fun _ p h => quiet_port p h) (fun _ h => quiet_updTx _ h) (quiet_updTx _ hqj)⟩
  | walker =>
    have hoffered : (taken .walker r (joined rest r s)).walker.offered = none := by
      unfold taken walkRequestPlaced updWalker
      dsimp only
      split <;> rfl
    have htaken : Quiet (taken .walker r (joined rest r s)) := by
      refine ⟨hq.1, ?_, hq.2.2⟩
      unfold taken walkRequestPlaced updWalker
      dsimp only
      split
      · exact hq.2.1
      · exact hq.2.1.imp_left (fun h hnone => h (Option.map_eq_none_iff.1 hnone))
    exact ⟨wentOn_pumpWalkerRounds (k := pumpFuel) (u := taken .walker r (joined rest r s)) hb hi hoffered (by unfold pumpFuel; omega),
      (walkerPumped_pump _).quiet htaken⟩
  | report =>
    have hplaced : ∀ u, Quiet u → Quiet (reportWordPlaced u) := fun u h => ⟨h.1, h.2.1, by
      unfold reportWordPlaced updReport
      dsimp only
      split <;> exact h.2.2⟩
    exact ⟨wentOn_pumpFuel (next := nextReportWord) (placed := reportWordPlaced) (u := taken .report r (joined rest r s))
        (fun _ => rfl) (fun _ _ => rfl) hb hi,
      pump_keeps (P := fun u => Quiet u) (fun _ p h => quiet_port p h) hplaced (hplaced _ hqj)⟩
  | office =>
    exact ⟨wentOn_pumpFuel (next := nextSetupRead) (placed := setupReadPlaced) (u := taken .office r (joined rest r s))
        (fun _ => rfl) (fun _ _ => rfl) hb hi,
      pump_keeps (P := fun u => Quiet u) (fun _ p h => quiet_port p h) (fun _ h => h) hqj⟩

/-- A receiver with no byte awaiting has nothing more to do than a close write (R76). -/
theorem rxWork_closing {x : Receiver} {p : StorePort} (ha : x.asm.awaiting = []) (hu : x.unplaced = none) :
    rxWork n (rxAt n x p s) = none ∨ ∃ (q : Req) (y : Receiver), y.unplaced = none ∧
      rxWork n (rxAt n x p s) = some (rxOffer n q (rxAt n y p s)) := by
  unfold rxWork
  simp only [Fin.getElem_fin, rxAt_line, hu, ha]
  split
  · exact .inl rfl
  · split
    · refine .inr ⟨closeWrite (rxAt n x p s) n x.closeNext, { x with closeNext := x.closeNext + 1 }, hu, ?_⟩
      rw [updRx_rxAt]
    · exact .inl rfl

theorem wentOn_receiver {rest : List Issuer} (hb : BusyPort (joined rest r s).port) (hi : .receiver n ∉ rest)
    (hw : rest ≠ []) (ha : s.lines[n.val].rx.asm.awaiting = []) (hr : r.purpose ≠ .rxClose true) (hq : Quiet s) :
    WentOn (.receiver n) (keptRequest (goOn (.receiver n) (taken (.receiver n) r (joined rest r s))) (.receiver n))
        (joined rest r s).port (goOn (.receiver n) (taken (.receiver n) r (joined rest r s))) ∧
      Quiet (goOn (.receiver n) (taken (.receiver n) r (joined rest r s))) := by
  obtain ⟨x, hx⟩ : ∃ x : Receiver, x = { s.lines[n.val].rx with unplaced := none } := ⟨_, rfl⟩
  obtain ⟨p, hp⟩ : ∃ p, p = (joined rest r s).port := ⟨_, rfl⟩
  have htaken : taken (.receiver n) r (joined rest r s) = rxAt n x p s := by
    have hplaced : taken (.receiver n) r (joined rest r s) =
        updRx n (fun x => { x with unplaced := none }) (joined rest r s) := if_neg hr
    rw [hplaced, updRx_at, hx, hp]
    rfl
  have hgo : goOn (.receiver n) (taken (.receiver n) r (joined rest r s)) = rxContinue (31 + 1) n (rxAt n x p s) := by
    rw [htaken]
    rfl
  have hpw : p.waiting = rest := by rw [hp]; rfl
  rw [hgo]
  obtain hnone | ⟨q, y, hy, hsome⟩ := rxWork_closing (s := s) (n := n) (x := x) (p := p) (by rw [hx]; exact ha) (by rw [hx])
  · rw [rxContinue_rests hnone]
    have hkept : keptRequest (rxAt n x p s) (.receiver n) = none := by
      show (rxAt n x p s).lines[n.val].rx.unplaced = none
      rw [rxAt_line, hx]
    exact ⟨.stops hb hkept hp, hq⟩
  · rw [rxContinue_step hsome, rxOffer_waits (by rw [hpw]; exact hw), rxContinue_rests (rxWork_waits rfl)]
    have hkept : keptRequest (rxAt n { y with unplaced := some q } (waitingPort (.receiver n) p) s) (.receiver n) = some q := by
      show (rxAt n { y with unplaced := some q } (waitingPort (.receiver n) p) s).lines[n.val].rx.unplaced = _
      rw [rxAt_line]
    exact ⟨.waits hb hi (by rw [hkept]; exact Option.some_ne_none q) (congrArg (waitingPort (.receiver n)) hp), hq⟩

/-! ## The Report Unit after a head rewrite (log 40) -/

/-- What taking reports does at a bus that is taken, from the Store Port `p` and the Delivery Unit `d`. -/
structure ReportsTaken (p : StorePort) (d : DeliveryUnit) (t : State) : Prop where
  busy : BusyPort t.port
  waiting : t.port.waiting = p.waiting ∨ (t.port.waiting = p.waiting ++ [.report])
  alone : p.waiting ≠ [] → t.port.queue = p.queue
  du : t.du = d

theorem pumpReport_du (s : State) : (pumpReport s).du = s.du :=
  pump_keeps (P := fun u => u.du = s.du) (fun _ _ h => h) (fun _ h => h) rfl

theorem ReportsTaken.takeReport {p : StorePort} {d : DeliveryUnit} (h : ReportsTaken p d t) (r : Record) :
    ReportsTaken p d (takeReport r t) := by
  have hport : (acceptReport r t).port = t.port := by rw [acceptReport_eq]
  have hdu : (Machine.takeReport r t).du = d := by
    refine (pumpReport_du _).trans ?_
    rw [acceptReport_eq]
    exact h.du
  by_cases hi : Issuer.report ∈ t.port.waiting
  · have hsame : Machine.takeReport r t = acceptReport r t := pump_waiting (by rw [hport]; exact hi)
    exact ⟨by rw [hsame, hport]; exact h.busy, by rw [hsame, hport]; exact h.waiting, by rw [hsame, hport]; exact h.alone, hdu⟩
  · have hsame : t.port.waiting = p.waiting := h.waiting.resolve_right fun h' => hi (by rw [h']; simp)
    have hwent := wentOn_pumpFuel (next := nextReportWord) (placed := reportWordPlaced) (u := acceptReport r t)
      (fun _ => rfl) (fun _ _ => rfl) (by rw [hport]; exact h.busy) (by rw [hport]; exact hi)
    rw [hport] at hwent
    refine ⟨⟨fun hc => h.busy.1 (hwent.cycle.symm.trans hc), hwent.places⟩, ?_,
      fun hne => (hwent.alone (by rw [hsame]; exact hne)).trans (h.alone hne), hdu⟩
    have hwaiting := hwent.waiting
    rw [hsame] at hwaiting
    split at hwaiting
    · exact .inl (hwaiting.trans (List.append_nil _))
    · exact .inr hwaiting

theorem ReportsTaken.takeOffers {p : StorePort} {d : DeliveryUnit} (h : ReportsTaken p d t) :
    ReportsTaken p d (takeOffers t) := by
  unfold Machine.takeOffers Machine.takeUntil
  dsimp only
  split
  · exact foldl_keeps (ReportsTaken p d) (fun _ o hu => hu.takeReport o.record) _ ⟨h.busy, h.waiting, h.alone, h.du⟩
  · exact h

theorem rewritePlaced_port (s : State) : (rewritePlaced s).port = s.port := by
  unfold rewritePlaced
  split
  · rfl
  · dsimp only
    split <;> rfl

theorem nextRewrite_port (u : State) (p : StorePort) : nextRewrite { u with port := p } = nextRewrite u := rfl

theorem rewritePlaced_walk (s : State) : (rewritePlaced s).walker.walk = s.walker.walk ∧ (rewritePlaced s).resetIn = s.resetIn := by
  unfold rewritePlaced
  split
  · exact ⟨rfl, rfl⟩
  · dsimp only
    split <;> exact ⟨rfl, rfl⟩

/-- The Delivery Unit goes on, and the Report Unit after it. -/
theorem settle_delivery {rest : List Issuer} (hr : s.resetIn = false) (hw : s.walker.walk ≠ none)
    (hb : BusyPort (joined rest r s).port) (hi : .delivery ∉ rest) :
    ReportsTaken (goOn .delivery (taken .delivery r (joined rest r s))).port
        (goOn .delivery (taken .delivery r (joined rest r s))).du
        (settle (goOn .delivery (taken .delivery r (joined rest r s)))) ∧
      WentOn .delivery (keptRequest (goOn .delivery (taken .delivery r (joined rest r s))) .delivery)
        (joined rest r s).port (goOn .delivery (taken .delivery r (joined rest r s))) := by
  obtain ⟨u, hu⟩ : ∃ u, u = taken .delivery r (joined rest r s) := ⟨_, rfl⟩
  have hport : u.port = (joined rest r s).port := by
    rw [hu]
    exact rewritePlaced_port _
  have hwent := wentOn_pumpFuel (i := .delivery) (u := u) rewritePlaced_port nextRewrite_port (by rw [hport]; exact hb)
    (by rw [hport]; exact hi)
  rw [hport] at hwent
  have hkept : (pumpDelivery u).walker.walk = s.walker.walk ∧ (pumpDelivery u).resetIn = s.resetIn := by
    refine pump_keeps (P := fun u => u.walker.walk = s.walker.walk ∧ u.resetIn = s.resetIn) (fun _ _ h => h) (fun v h => ?_) ?_
    · exact ⟨(rewritePlaced_walk v).1.trans h.1, (rewritePlaced_walk v).2.trans h.2⟩
    · rw [hu]
      exact rewritePlaced_walk (joined rest r s)
  have hgo : goOn .delivery (taken .delivery r (joined rest r s)) = pumpDelivery u := by
    rw [hu]
    rfl
  rw [hgo]
  have hbusy : BusyPort (pumpDelivery u).port := ⟨fun hc => hb.1 (hwent.cycle.symm.trans hc), hwent.places⟩
  have htaken : ReportsTaken (pumpDelivery u).port (pumpDelivery u).du (takeOffers (pumpDelivery u)) :=
    ReportsTaken.takeOffers ⟨hbusy, .inl rfl, fun _ => rfl, rfl⟩
  have hsettle : settle (pumpDelivery u) = eventEnd (takeOffers (pumpDelivery u)) := by
    unfold settle
    rw [if_neg (by rw [hkept.2, hr]; exact Bool.false_ne_true), runWalker_quiet _ (.inl (by rw [hkept.1]; exact hw))]
    rfl
  have hend := eventEnd_busy htaken.busy.1
  rw [hsettle]
  refine ⟨⟨by rw [hend]; exact htaken.busy, by rw [hend]; exact htaken.waiting, by rw [hend]; exact htaken.alone, ?_⟩, hwent⟩
  rw [eventEnd_eq]
  exact htaken.du

end Sys2Proof.Machine

namespace Sys2Proof.MemoryPath
open Sys2Proof.Machine

/-- Settles O11: the request joins the queue, and its issuer rejoins the list with a further request only. -/
theorem requestPlacement : Obligations.RequestPlacement := by
  intro s i rest r hr hc hw hroom hk
  have hb : BusyPort (joined rest r s).port := by
    refine ⟨hc, ?_⟩
    show (s.port.queue ++ [r]).length ≤ Config.queuePlaces
    rw [List.length_append, List.length_singleton]
    exact hroom
  obtain ⟨u, hu⟩ : ∃ u, u = goOn i (taken i r (joined rest r s)) := ⟨_, rfl⟩
  have hexec : exec .requestPlacement s = .next (settle u) := by
    have hdue : placementDue s = true := by
      unfold placementDue
      simp [hr, hw, hroom]
    show event (placementDue s) placeWaiting s = _
    rw [hdue, event_due, placeWaiting_eq hc hw hk, hu]
  have hframe : PlacedFrame (joined rest r s) (settle u) := by
    have hplaced := placedFrame_goOn (i := i) hb
    rw [← hu] at hplaced
    exact hplaced.within (fun h => hc (hplaced.cycle.symm.trans h)) (within_settle (.refl u))
  refine ⟨_, hexec, hframe.cycle, hframe.fwd, hframe.queue, hframe.places, hframe.store, hframe.path, hframe.router,
    hframe.held, hframe.pins, fun hi hq hissuer => ?_, fun hd hi hwalk => ?_⟩
  · have hwent : WentOn i (keptRequest u i) (joined rest r s).port u ∧ Quiet u := by
      rw [hu]
      obtain hplain | ⟨n, rfl, hne, hawait, hpurpose⟩ := hissuer
      · exact wentOn_goOn hplain hb hi hq
      · exact wentOn_receiver hb hi hne hawait hpurpose hq
    obtain ⟨hwent, hqu⟩ := hwent
    have hend := eventEnd_busy (s := u) fun h => hc (hwent.cycle.symm.trans h)
    rw [settle_quiet hqu, keptRequest_eventEnd, hend]
    exact ⟨hwent.waiting, hwent.alone⟩
  · subst hd
    obtain ⟨hreports, hwent⟩ := settle_delivery (r := r) hr hwalk hb hi
    rw [← hu] at hreports hwent
    have hkept : keptRequest (settle u) .delivery = keptRequest u .delivery := by
      show nextRewrite (settle u) = nextRewrite u
      unfold nextRewrite
      rw [hreports.du]
    have hwaiting := hwent.waiting
    have hmore : ∃ tail, (settle u).port.waiting =
        rest ++ ((if keptRequest u .delivery = none then [] else [Issuer.delivery]) ++ tail) ∧
        (tail = [] ∨ tail = [Issuer.report]) := by
      obtain h | h := hreports.waiting
      · exact ⟨[], by rw [h, hwaiting, List.append_nil]; rfl, .inl rfl⟩
      · exact ⟨[.report], by rw [h, hwaiting, List.append_assoc]; rfl, .inr rfl⟩
    obtain ⟨tail, htail, hcases⟩ := hmore
    have hrest : rest ≠ [] → u.port.waiting ≠ [] := fun hne h => hne (List.append_eq_nil_iff.1 (hwaiting.symm.trans h)).1
    refine ⟨fun hne => (hreports.alone (hrest hne)).trans (hwent.alone hne), _, htail, fun j hj => ?_, ?_⟩
    · rcases List.mem_append.1 hj with h | h
      · split at h
        · exact absurd h (List.not_mem_nil)
        · exact .inl (List.mem_singleton.1 h)
      · rcases hcases with rfl | rfl
        · exact absurd h (List.not_mem_nil)
        · exact .inr (List.mem_singleton.1 h)
    · rw [hkept]
      have htail : Issuer.delivery ∉ tail := by
        rcases hcases with rfl | rfl
        · exact List.not_mem_nil
        · exact fun h => Issuer.noConfusion (List.mem_singleton.1 h)
      by_cases hnone : keptRequest u .delivery = none
      · rw [if_pos hnone]
        simp [hnone, htail]
      · rw [if_neg hnone]
        simp [hnone]

end Sys2Proof.MemoryPath

/-! SUPPORT. A sample tick of one line, part by part, and a cycle of the reference clock. -/

namespace Sys2Proof.Machine

variable {h : HeldSetup} {n : LineNo} {mark : Bool} {l : LineUnit} {e : Instr} {s : State}

theorem mem_eventIf {c : Bool} {x : Instr} : e ∈ eventIf c x ↔ c = true ∧ e = x := by
  unfold eventIf
  cases c <;> simp

/-! ## The level runs (R51 to R54, R78) -/

/-- The line after the runs have counted a sample. -/
def ranLine (mark : Bool) (l : LineUnit) : LineUnit :=
  { l with
    spaceRun := if mark then 0 else min 4096 (l.spaceRun + 1)
    markRun := if mark then min 64 (l.markRun + 1) else 0
    rx := { l.rx with idleTimer := if mark then l.rx.idleTimer else l.rx.idleTimer.map (fun _ => 0) } }

/-- The events of the runs. -/
def runEvents (n : LineNo) (mark : Bool) (l : LineUnit) : List Instr :=
  eventIf (mark && l.inBreak) (.breakEnd n) ++ eventIf (mark && l.markRun == 63) (.steadyMark n) ++
    eventIf (!mark && l.spaceRun == 127) (.breakDetection n) ++ eventIf (!mark && l.spaceRun == 4095) (.loopOpen n)

theorem tickRuns_eq (n : LineNo) (mark : Bool) (l : LineUnit) : tickRuns n mark l = (ranLine mark l, runEvents n mark l) := by
  cases mark
  · rfl
  · refine Prod.ext rfl ?_
    show _ = _ ++ [] ++ []
    rw [List.append_nil, List.append_nil]
    rfl

/-! ## The sampler (R46 to R49) -/

/-- The sampler after a sample of a character. -/
def heardSampler (mark : Bool) (recent : Bool × Bool) (x : Sampler) : Sampler :=
  { x with
    sample := x.sample + 1
    noise := x.noise || (disagree recent.1 recent.2 mark &&
      decide ((x.sample + 1) % 8 = 5 ∧ ¬ (x.sample + 1 = 5 ∧ majority recent.1 recent.2 mark = true)))
    code := x.code ||| BitVec.ofNat 5 (if majority recent.1 recent.2 mark = true ∧ (x.sample + 1) % 8 = 5 ∧
      13 ≤ x.sample + 1 ∧ x.sample + 1 < 53 then 2 ^ ((x.sample + 1) / 8 - 1) else 0) }

/-- The events of a sample of a character. -/
def characterEvents (n : LineNo) (mark : Bool) (l : LineUnit) : List Instr :=
  eventIf (l.sampler.sample + 1 == 5 && majority l.recent.1 l.recent.2 mark) (.falseStart n (!mark)) ++
    eventIf (l.sampler.sample + 1 == 53) (.characterCompletion n l.sampler.code
      (l.sampler.noise || disagree l.recent.1 l.recent.2 mark) (!majority l.recent.1 l.recent.2 mark) mark)

theorem tickCharacter_eq (n : LineNo) (mark : Bool) (hl : l.sampler.sample ≤ 52) :
    tickCharacter n mark l = ({ l with sampler := heardSampler mark l.recent l.sampler }, characterEvents n mark l) := by
  unfold tickCharacter heardSampler characterEvents
  dsimp only
  generalize majority l.recent.1 l.recent.2 mark = vote
  generalize disagree l.recent.1 l.recent.2 mark = mixed
  have hk : l.sampler.sample + 1 ≤ 53 := by omega
  generalize l.sampler.sample + 1 = k at hk
  by_cases h8 : k % 8 = 5
  · rw [if_neg (not_not.2 h8)]
    by_cases h5 : k = 5
    · subst h5
      cases vote <;> simp [eventIf]
    · by_cases hlt : k < 53
      · have h13 : 13 ≤ k := by omega
        have h53 : k ≠ 53 := by omega
        rw [if_neg h5, if_pos hlt]
        cases vote <;> simp [eventIf, h5, h8, h13, h53, hlt]
      · obtain rfl : k = 53 := by omega
        cases vote <;> simp [eventIf]
  · have h5 : k ≠ 5 := by omega
    have h53 : k ≠ 53 := by omega
    rw [if_pos h8]
    simp [eventIf, h5, h8, h53]

/-- The sampler after a tick. -/
def tickedSampler (mark : Bool) (recent : Bool × Bool) (x : Sampler) : Sampler :=
  match x.state with
  | .waitMark => if mark then { x with state := .waitStart } else x
  | .waitStart => x
  | .inCharacter => heardSampler mark recent x

/-- The events of the sampler. -/
def samplerEvents (n : LineNo) (mark : Bool) (l : LineUnit) : List Instr :=
  match l.sampler.state with
  | .waitMark => []
  | .waitStart => eventIf (!mark) (.startEdge n)
  | .inCharacter => characterEvents n mark l

theorem tickSampler_eq (n : LineNo) (mark : Bool) (hl : l.sampler.state = .inCharacter → l.sampler.sample ≤ 52) :
    tickSampler n mark l = ({ l with sampler := tickedSampler mark l.recent l.sampler }, samplerEvents n mark l) := by
  unfold tickSampler tickedSampler samplerEvents
  cases hs : l.sampler.state with
  | waitMark => cases mark <;> rfl
  | waitStart => rfl
  | inCharacter => exact tickCharacter_eq n mark (hl hs)

/-! ## The counts (R55, R78, R145, R150, R152) -/

theorem tickIdleTimer_eq (h : HeldSetup) (n : LineNo) (mark : Bool) (l : LineUnit) : tickIdleTimer h n mark l =
    ({ l with rx := { l.rx with idleTimer := if mark then l.rx.idleTimer.map (· + 1) else l.rx.idleTimer } },
      eventIf (mark && l.rx.idleTimer.any (fun k => 64 * h.idleTimeout ≤ k + 1)) (.idleTimeoutExpiry n)) := by
  obtain ⟨t, ht⟩ : ∃ t, t = l.rx.idleTimer := ⟨_, rfl⟩
  unfold tickIdleTimer
  rw [← ht]
  cases t with
  | none =>
    have hself : ({ l with rx := { l.rx with idleTimer := none } } : LineUnit) = l := by rw [ht]
    cases mark <;> exact Prod.ext hself.symm rfl
  | some k =>
    have hself : ({ l with rx := { l.rx with idleTimer := some k } } : LineUnit) = l := by rw [ht]
    cases mark
    · exact Prod.ext hself.symm rfl
    · rfl

theorem tickSeizure_eq (h : HeldSetup) (n : LineNo) (mark : Bool) (l : LineUnit) : tickSeizure h n mark l =
    ({ l with tx := { l.tx with
        guardCount := l.tx.guardCount.map (fun k => if loopIdle mark l then k + 1 else k)
        backoffCount := l.tx.backoffCount.map (fun k => if loopIdle mark l then k + 1 else k) } },
      eventIf (loopIdle mark l && l.tx.guardCount.any (fun k => 64 * h.guardTime ≤ k + 1)) (.guardExpiry n) ++
        eventIf (loopIdle mark l && l.tx.backoffCount.any (fun k => 64 * (n.val % 4 + 1) ≤ k + 1)) (.backoffExpiry n)) := by
  unfold tickSeizure
  cases loopIdle mark l
  · simp [eventIf]
  · rfl

/-! ## The sending (R44, R45, R122, R148) -/

/-- The sending in progress after a sample. -/
def sentOn (g : Sending) : Sending := if g.kind.length ≤ g.sample + 1 then g else { g with sample := g.sample + 1 }

/-- The events of the sending. -/
def sendingEvents (n : LineNo) (mark : Bool) (l : LineUnit) : List Instr :=
  match l.tx.sending with
  | none => eventIf (hasNext l.tx) (.frameStart n)
  | some g =>
    eventIf (decide (g.kind.length ≤ g.sample + 1)) (sendingEnd n g.kind) ++
      eventIf (decide (g.sample + 1 < g.kind.length) && (collisionSample g.kind (g.sample + 1) && echoes l &&
        !majority l.recent.1 l.recent.2 mark)) (.collision n)

/-- The send level after a sample. -/
def sendLevel (t : Transmitter) : Bool :=
  match t.sending with
  | none => t.send
  | some g => if g.kind.length ≤ g.sample + 1 then t.send else g.kind.level (g.sample + 1)

theorem tickSending_eq (n : LineNo) (mark : Bool) (l : LineUnit) : tickSending n mark l =
    ({ l with tx := { l.tx with sending := l.tx.sending.map sentOn, send := sendLevel l.tx } }, sendingEvents n mark l) := by
  unfold tickSending sendingEvents sendLevel collisionDue
  cases hg : l.tx.sending with
  | none =>
    have hself : ({ l with tx := { l.tx with sending := none, send := l.tx.send } } : LineUnit) = l := by rw [← hg]
    exact Prod.ext hself.symm rfl
  | some g =>
    dsimp only
    by_cases hend : g.kind.length ≤ g.sample + 1
    · have hself : ({ l with tx := { l.tx with sending := some g, send := l.tx.send } } : LineUnit) = l := by rw [← hg]
      rw [if_pos hend, if_pos hend, Option.map_some, sentOn, if_pos hend, hself]
      simp [eventIf, hend, Nat.not_lt.2 hend]
    · rw [if_neg hend, if_neg hend, Option.map_some, sentOn, if_neg hend]
      simp [eventIf, hend, Nat.not_le.1 hend]

/-! ## The whole tick (R43, R50) -/

/-- The line after a sample tick. -/
def tickedLine (mark : Bool) (l : LineUnit) : LineUnit :=
  { l with
    spaceRun := if mark then 0 else min 4096 (l.spaceRun + 1)
    markRun := if mark then min 64 (l.markRun + 1) else 0
    sampler := tickedSampler mark l.recent l.sampler
    recent := (l.recent.2, mark)
    rx := { l.rx with idleTimer := l.rx.idleTimer.map (fun k => if mark then k + 1 else 0) }
    tx := { l.tx with
      guardCount := l.tx.guardCount.map (fun k =>
        if loopIdle mark { l with sampler := tickedSampler mark l.recent l.sampler } then k + 1 else k)
      backoffCount := l.tx.backoffCount.map (fun k =>
        if loopIdle mark { l with sampler := tickedSampler mark l.recent l.sampler } then k + 1 else k)
      answerCount := l.tx.answerCount.map (· + 1)
      sending := l.tx.sending.map sentOn, send := sendLevel l.tx } }

/-- The events of a sample tick. -/
def tickEvents (h : HeldSetup) (n : LineNo) (mark : Bool) (l : LineUnit) : List Instr :=
  runEvents n mark l ++ samplerEvents n mark l ++
    eventIf (mark && l.rx.idleTimer.any (fun k => 64 * h.idleTimeout ≤ k + 1)) (.idleTimeoutExpiry n) ++
    (eventIf (loopIdle mark { l with sampler := tickedSampler mark l.recent l.sampler } &&
        l.tx.guardCount.any (fun k => 64 * h.guardTime ≤ k + 1)) (.guardExpiry n) ++
      eventIf (loopIdle mark { l with sampler := tickedSampler mark l.recent l.sampler } &&
        l.tx.backoffCount.any (fun k => 64 * (n.val % 4 + 1) ≤ k + 1)) (.backoffExpiry n)) ++
    eventIf (l.tx.answerCount.any (fun k => 64 * h.answerTimeout ≤ k + 1)) (.answerTimeoutExpiry n) ++
    sendingEvents n mark l

theorem sampleTick_eq (h : HeldSetup) (n : LineNo) (mark : Bool) (hl : l.sampler.state = .inCharacter → l.sampler.sample ≤ 52) :
    sampleTick h n mark l = (tickedLine mark l, tickEvents h n mark l) := by
  have hruns : (tickRuns n mark l).andThen (tickSampler n mark) =
      ({ ranLine mark l with sampler := tickedSampler mark l.recent l.sampler }, runEvents n mark l ++ samplerEvents n mark l) := by
    unfold Ticked.andThen
    rw [tickRuns_eq, tickSampler_eq (l := ranLine mark l) n mark hl]
    rfl
  unfold sampleTick
  rw [hruns]
  unfold Ticked.andThen
  simp only [tickIdleTimer_eq, tickSeizure_eq, tickSending_eq, tickAnswer, tickRecent, List.append_nil]
  cases mark <;> rfl

end Sys2Proof.Machine

/-! SUPPORT. A cycle of the reference clock on all lines, and the events of a tick one by one. -/

namespace Sys2Proof.Machine

variable {h : HeldSetup} {n : LineNo} {mark : Bool} {l : LineUnit} {s t : State}

/-! ## A cycle of the reference clock (R43, R57) -/

theorem ordered_perm (k : Nat) (evs : List Instr) : (Config.ordered k evs).Perm evs := by
  unfold Config.ordered
  split
  · exact .refl _
  · exact .refl _
  · split
    · next hp => exact List.isPerm_iff.1 hp
    · exact .refl _

/-- The lines of `ns` have had their cycle, the events queued behind `evs`. -/
structure CycledOn (s : State) (evs : List Instr) (ns : List LineNo) (acc : State × List Instr) : Prop where
  others : { acc.1 with lines := s.lines } = s
  lines : ∀ n : LineNo, acc.1.lines[n.val] =
    if n ∈ ns then (cycleLine s.office.held n s.pins.recv[n] s.lines[n.val]).1 else s.lines[n.val]
  events : acc.2 = evs ++ ns.flatMap (fun n => (cycleLine s.office.held n s.pins.recv[n] s.lines[n.val]).2)

theorem CycledOn.cycleOne {evs : List Instr} {ns : List LineNo} {acc : State × List Instr} (h : CycledOn s evs ns acc)
    {m : LineNo} (hm : m ∉ ns) : CycledOn s evs (ns ++ [m]) (cycleOne acc m) := by
  have hoffice : acc.1.office = s.office := (congrArg State.office h.others :)
  have hpins : acc.1.pins = s.pins := (congrArg State.pins h.others :)
  have hline : acc.1.lines[m.val] = s.lines[m.val] := (h.lines m).trans (if_neg hm)
  have hticked : cycleLine acc.1.office.held m acc.1.pins.recv[m] acc.1.lines[m] =
      cycleLine s.office.held m s.pins.recv[m] s.lines[m.val] := by
    rw [hoffice, hpins, Fin.getElem_fin acc.1.lines, hline]
  refine ⟨h.others, fun n => ?_, ?_⟩
  · show (updLine m (fun _ => (cycleLine acc.1.office.held m acc.1.pins.recv[m] acc.1.lines[m]).1) acc.1).lines[n.val] = _
    by_cases hn : n = m
    · subst hn
      rw [updLine_line, hticked, if_pos (by simp)]
    · rw [updLine_lines_ne _ _ hn, h.lines n]
      simp [hn]
  · show acc.2 ++ (cycleLine acc.1.office.held m acc.1.pins.recv[m] acc.1.lines[m]).2 = _
    rw [hticked, h.events, List.flatMap_append, List.append_assoc, List.flatMap_singleton]

theorem cycledOn_foldl {evs : List Instr} (ms ns : List LineNo) {acc : State × List Instr} (h : CycledOn s evs ns acc)
    (hnodup : (ns ++ ms).Nodup) : CycledOn s evs (ns ++ ms) (ms.foldl cycleOne acc) := by
  induction ms generalizing ns acc with
  | nil => simpa using h
  | cons m ms ih =>
    have hm : m ∉ ns := fun hm => (List.disjoint_of_nodup_append hnodup) hm (by simp)
    have hstep := ih (ns ++ [m]) (h.cycleOne hm) (by simpa using hnodup)
    simpa using hstep

/-- The whole cycle: the seconds divider, then every line, and the events join the queue of commands (R43, R57; log 9). -/
theorem clockCycle_eq (hr : s.resetIn = false) : ∃ acc : State × List Instr,
    CycledOn (cycleSeconds s).1 ((cycleSeconds s).2 ++ cycleStore s) (List.finRange 24) acc ∧
      clockCycle s = queueEvents acc.2 acc.1 := by
  refine ⟨_, cycledOn_foldl (List.finRange 24) [] (acc := ((cycleSeconds s).1, (cycleSeconds s).2 ++ cycleStore s))
    ⟨rfl, fun n => ?_, ?_⟩ (by simpa using List.nodup_finRange 24), ?_⟩
  · simp
  · simp
  · unfold clockCycle
    rw [if_neg (by simp [hr])]

theorem cycleSeconds_eq (s : State) : cycleSeconds s =
    ({ s with office := if s.office.state = .running then { s.office with divider := s.office.divider + 1 } else s.office },
      if s.office.state = .running ∧ 2457600 ≤ s.office.divider + 1 then [.clockAdvance] else []) := by
  unfold cycleSeconds
  by_cases hrun : s.office.state = .running
  · rw [if_pos (by unfold running; simp [hrun]), if_pos hrun]
    refine Prod.ext rfl ?_
    unfold eventIf
    simp only [decide_eq_true_eq, hrun, true_and]
    rfl
  · rw [if_neg (by unfold running; simp [hrun]), if_neg hrun, if_neg (fun h => hrun h.1)]

/-! ## The parts of the statement about samples -/

theorem sendKind_levels (c : Code) (stop : StopLength) (i : Nat) :
    (SendKind.frame c stop).length = (match stop with | .one => 56 | .oneAndHalf => 60 | .two => 64) ∧
    (i < 8 → (SendKind.frame c stop).level i = false) ∧
    (∀ b, b < 5 → 8 * b + 8 ≤ i → i < 8 * b + 16 → (SendKind.frame c stop).level i = c.getLsbD b) ∧
    (48 ≤ i → (SendKind.frame c stop).level i = true) ∧
    SendKind.preamble.length = 64 ∧ SendKind.preamble.level i = true ∧
    SendKind.breakIn.length = 192 ∧ (SendKind.breakIn.level i = false ↔ i < 128) := by
  have hframe : (SendKind.frame c stop).level i =
      if i < 8 then false else if i < 48 then c.getLsbD (i / 8 - 1) else true := rfl
  rw [hframe]
  refine ⟨?_, fun h => if_pos h, fun b hb h1 h2 => ?_, fun h => ?_, rfl, rfl, rfl, ?_⟩
  · cases stop <;> rfl
  · rw [if_neg (by omega), if_pos (by omega), show i / 8 - 1 = b by omega]
  · rw [if_neg (by omega), if_neg (by omega)]
  · unfold SendKind.level
    simp

/-- The row of a completion is the one that its purpose names (R11). -/
theorem completionCommand_row (p : Purpose) :
    (p = .setupRead ∧ completionCommand p = .setupReadCompletion) ∨
    (p = .poolLink true ∧ completionCommand p = .poolBuildEnd) ∨
    (p = .walkLink ∧ completionCommand p = .linkReadCompletion) ∨
    (p = .handOverHead ∧ completionCommand p = .handOverHeadWriteCompletion) ∨
    (p = .postLink ∧ completionCommand p = .postingLinkReadCompletion) ∨
    (p = .postHeadRead ∧ completionCommand p = .postingHeadReadCompletion) ∨
    (p = .postHeadWrite true ∧ completionCommand p = .postingHeadWriteCompletion) ∨
    (p = .reportWord true ∧ completionCommand p = .reportWordCompletion) ∨
    (p = .txHead ∧ completionCommand p = .transmitHeadReadCompletion) ∨
    (p = .txText ∧ completionCommand p = .textReadCompletion) ∨
    (p = .txLink ∧ completionCommand p = .transmitLinkReadCompletion) ∨
    (plainWrite p = true ∧ completionCommand p = .internalWriteCompletion) := by
  cases p with
  | poolLink last => cases last <;> simp [completionCommand, plainWrite]
  | postHeadWrite last => cases last <;> simp [completionCommand, plainWrite]
  | reportWord last => cases last <;> simp [completionCommand, plainWrite]
  | _ => simp [completionCommand, plainWrite]

/-! ## The events of a tick, one by one -/

section
variable {e : Instr}

theorem mem_samplerEvents : e ∈ samplerEvents n mark l ↔
    (l.sampler.state = .waitStart ∧ mark = false ∧ e = .startEdge n) ∨
    (l.sampler.state = .inCharacter ∧ l.sampler.sample + 1 = 5 ∧ majority l.recent.1 l.recent.2 mark = true ∧
      e = .falseStart n (!mark)) ∨
    (l.sampler.state = .inCharacter ∧ l.sampler.sample + 1 = 53 ∧ e = .characterCompletion n l.sampler.code
      (l.sampler.noise || disagree l.recent.1 l.recent.2 mark) (!majority l.recent.1 l.recent.2 mark) mark) := by
  unfold samplerEvents characterEvents
  cases l.sampler.state <;> simp [mem_eventIf, and_assoc]

theorem mem_sendingEvents : e ∈ sendingEvents n mark l ↔
    (l.tx.sending = none ∧ hasNext l.tx = true ∧ e = .frameStart n) ∨
    (∃ c stop i, l.tx.sending = some ⟨.frame c stop, i⟩ ∧ (SendKind.frame c stop).length ≤ i + 1 ∧ e = .characterBoundary n) ∨
    (∃ i, l.tx.sending = some ⟨.preamble, i⟩ ∧ 64 ≤ i + 1 ∧ e = .preambleEnd n) ∨
    (∃ i, l.tx.sending = some ⟨.breakIn, i⟩ ∧ 192 ≤ i + 1 ∧ e = .breakInEnd n) ∨
    (∃ kind i, l.tx.sending = some ⟨kind, i⟩ ∧ i + 1 < kind.length ∧ collisionSample kind (i + 1) = true ∧
      echoes l = true ∧ majority l.recent.1 l.recent.2 mark = false ∧ e = .collision n) := by
  unfold sendingEvents
  cases hg : l.tx.sending with
  | none => simp [mem_eventIf]
  | some g =>
    obtain ⟨kind, i⟩ := g
    have hends : (kind.length ≤ i + 1 ∧ e = sendingEnd n kind) ↔
        (∃ c stop, kind = .frame c stop ∧ (SendKind.frame c stop).length ≤ i + 1 ∧ e = .characterBoundary n) ∨
        (kind = .preamble ∧ 64 ≤ i + 1 ∧ e = .preambleEnd n) ∨ (kind = .breakIn ∧ 192 ≤ i + 1 ∧ e = .breakInEnd n) := by
      cases kind with
      | frame c stop => simp [sendingEnd]
      | preamble => simp [sendingEnd, SendKind.length]
      | breakIn => simp [sendingEnd, SendKind.length]
    simp only [List.mem_append, mem_eventIf, decide_eq_true_eq, Bool.and_eq_true, hends, reduceCtorEq, false_and, false_or,
      Option.some.injEq, Sending.mk.injEq, Bool.not_eq_true']
    constructor
    · rintro ((⟨c, stop, rfl, hlen, rfl⟩ | ⟨rfl, hlen, rfl⟩ | ⟨rfl, hlen, rfl⟩) | ⟨⟨hlt, ⟨hc, he⟩, hm⟩, rfl⟩)
      · exact .inl ⟨c, stop, i, ⟨rfl, rfl⟩, hlen, rfl⟩
      · exact .inr (.inl ⟨i, ⟨rfl, rfl⟩, hlen, rfl⟩)
      · exact .inr (.inr (.inl ⟨i, ⟨rfl, rfl⟩, hlen, rfl⟩))
      · exact .inr (.inr (.inr ⟨kind, i, ⟨rfl, rfl⟩, hlt, hc, he, hm, rfl⟩))
    · rintro (⟨c, stop, j, ⟨rfl, rfl⟩, hlen, rfl⟩ | ⟨j, ⟨rfl, rfl⟩, hlen, rfl⟩ | ⟨j, ⟨rfl, rfl⟩, hlen, rfl⟩ |
        ⟨k, j, ⟨rfl, rfl⟩, hlt, hc, he, hm, rfl⟩)
      · exact .inl (.inl ⟨c, stop, rfl, hlen, rfl⟩)
      · exact .inl (.inr (.inl ⟨rfl, hlen, rfl⟩))
      · exact .inl (.inr (.inr ⟨rfl, hlen, rfl⟩))
      · exact .inr ⟨⟨hlt, ⟨hc, he⟩, hm⟩, rfl⟩

/-- The events of a tick are those of its parts. -/
theorem mem_tickEvents : e ∈ tickEvents h n mark l ↔ e ∈ runEvents n mark l ∨ e ∈ samplerEvents n mark l ∨
    (mark = true ∧ (∃ k, l.rx.idleTimer = some k ∧ 64 * h.idleTimeout ≤ k + 1) ∧ e = .idleTimeoutExpiry n) ∨
    (loopIdle mark { l with sampler := tickedSampler mark l.recent l.sampler } = true ∧
      (∃ k, l.tx.guardCount = some k ∧ 64 * h.guardTime ≤ k + 1) ∧ e = .guardExpiry n) ∨
    (loopIdle mark { l with sampler := tickedSampler mark l.recent l.sampler } = true ∧
      (∃ k, l.tx.backoffCount = some k ∧ 64 * (n.val % 4 + 1) ≤ k + 1) ∧ e = .backoffExpiry n) ∨
    ((∃ k, l.tx.answerCount = some k ∧ 64 * h.answerTimeout ≤ k + 1) ∧ e = .answerTimeoutExpiry n) ∨
    e ∈ sendingEvents n mark l := by
  unfold tickEvents
  simp only [List.mem_append, mem_eventIf, Bool.and_eq_true, Option.any_eq_true, decide_eq_true_eq, or_assoc, and_assoc]

theorem mem_runEvents : e ∈ runEvents n mark l ↔ (mark = true ∧ l.inBreak = true ∧ e = .breakEnd n) ∨
    (mark = true ∧ l.markRun + 1 = 64 ∧ e = .steadyMark n) ∨ (mark = false ∧ l.spaceRun + 1 = 128 ∧ e = .breakDetection n) ∨
    (mark = false ∧ l.spaceRun + 1 = 4096 ∧ e = .loopOpen n) := by
  unfold runEvents
  simp [mem_eventIf, and_assoc]

end

/-! ## Votes (R47 to R49, R148) -/

theorem majority_iff (a b c : Bool) : majority a b c = true ↔ (a = true ∧ b = true) ∨ (c = true ∧ (a = true ∨ b = true)) := by
  cases a <;> cases b <;> cases c <;> decide

theorem disagree_iff (a b c : Bool) : disagree a b c = false ↔ a = c ∧ b = c := by
  cases a <;> cases b <;> cases c <;> decide

/-- The code bits of a vote (R48). -/
theorem heardSampler_code {recent : Bool × Bool} {x : Sampler} {b : Nat} (hb : b < 5) (hx : x.sample ≤ 52) :
    (heardSampler mark recent x).code.getLsbD b =
      (x.code.getLsbD b || (majority recent.1 recent.2 mark && decide (x.sample + 1 = 8 * b + 13))) := by
  unfold heardSampler
  dsimp only
  rw [BitVec.getLsbD_or]
  congr 1
  by_cases hv : majority recent.1 recent.2 mark = true ∧ (x.sample + 1) % 8 = 5 ∧ 13 ≤ x.sample + 1 ∧ x.sample + 1 < 53
  · obtain ⟨hvote, h8, h13, h53⟩ := hv
    rw [if_pos ⟨hvote, h8, h13, h53⟩, hvote, BitVec.getLsbD_ofNat, Nat.testBit_two_pow, Bool.true_and, decide_eq_true hb,
      Bool.true_and, decide_eq_decide]
    omega
  · rw [if_neg hv, BitVec.getLsbD_ofNat, Nat.zero_testBit, Bool.and_false]
    refine (Bool.eq_false_iff.2 fun hboth => hv ?_).symm
    rw [Bool.and_eq_true, decide_eq_true_eq] at hboth
    exact ⟨hboth.1, by omega, by omega, by omega⟩

/-- The loop is idle after the sample: a false start or the end of a character at this tick counts (log 13). -/
theorem loopIdle_ticked :
    loopIdle mark { l with sampler := tickedSampler mark l.recent l.sampler } = true ↔ mark = true ∧ l.rx.state = .hunting ∧
      (l.sampler.state ≠ .inCharacter ∨ l.sampler.sample + 1 = 53 ∨
        (l.sampler.sample + 1 = 5 ∧ majority l.recent.1 l.recent.2 mark = true)) := by
  unfold loopIdle samplerAwaits tickedSampler
  cases mark with
  | false => simp
  | true => cases hs : l.sampler.state <;> simp [heardSampler, hs]

/-- A collision check falls at sample 5 of a whole element sent as mark (R148). -/
theorem collisionSample_iff (kind : SendKind) (i : Nat) : (i + 1 < kind.length ∧ collisionSample kind (i + 1) = true) ↔
    ∃ element, i = 8 * element + 4 ∧ 8 * element + 8 ≤ kind.length ∧ kind.level (8 * element + 5) = true := by
  unfold collisionSample
  simp only [Bool.and_eq_true, beq_iff_eq, decide_eq_true_eq]
  constructor
  · rintro ⟨-, ⟨h8, hlen⟩, hlevel⟩
    refine ⟨(i + 1) / 8, by omega, by omega, ?_⟩
    rw [show 8 * ((i + 1) / 8) + 5 = i + 1 by omega]
    exact hlevel
  · rintro ⟨element, rfl, hlen, hlevel⟩
    exact ⟨by omega, ⟨by omega, by omega⟩, hlevel⟩

end Sys2Proof.Machine

namespace Sys2Proof.Transmitters
open Sys2Proof.Machine

/-- Settles O47: the levels of the sendings, the cycle of the reference clock, the rows of the completions, the sample
divider, and the sample tick event by event. -/
theorem sendLevels : Obligations.SendLevels := by
  refine ⟨sendKind_levels, fun s => ⟨fun hr => ?_, fun hp hd hi => ?_, fun hr => ?_⟩, fun s => ⟨fun h => ?_, fun hsr => ⟨fun a ha => ?_,
    fun r hr => ?_⟩⟩, fun h n mark l period hperiod => ?_, fun h n mark vote mixed l u evs htick hsample hvote hmixed => ?_⟩
  · unfold clockCycle
    exact if_pos hr
  · unfold step idle
    rw [hp, hd, hi]
  · obtain ⟨acc, hacc, hcycle⟩ := clockCycle_eq hr
    have hseconds := cycleSeconds_eq s
    have hlines : (cycleSeconds s).1.lines = s.lines := by rw [hseconds]
    have hpins : (cycleSeconds s).1.pins = s.pins := by rw [hseconds]
    have hheld : (cycleSeconds s).1.office.held = s.office.held := by
      rw [hseconds]
      dsimp only
      split <;> rfl
    have hoffice : acc.1.office = (cycleSeconds s).1.office := (congrArg State.office hacc.others :)
    rw [hcycle]
    have hpending : acc.1.pending = s.pending :=
      ((congrArg State.pending hacc.others :) : acc.1.pending = (cycleSeconds s).1.pending).trans (by rw [hseconds])
    refine ⟨fun n => ?_, ?_, ?_, _, congrArg (fun p => p ++ Config.ordered acc.1.freeCount acc.2) hpending, ?_⟩
    · have hline := hacc.lines n
      rw [if_pos (List.mem_finRange n), hlines, hpins, hheld] at hline
      exact hline
    · refine hoffice.trans ?_
      rw [hseconds]
    · have hothers : { acc.1 with lines := s.lines, office := s.office } = s := by
        have hsame := congrArg (fun x : State => { x with office := s.office }) hacc.others
        rw [hlines, hseconds] at hsame
        exact hsame
      exact congrArg (fun x : State => { x with pending := s.pending, freeCount := s.freeCount }) hothers
    · refine (ordered_perm _ _).trans (.of_eq ?_)
      rw [hacc.events, hlines, hpins, hheld, hseconds]
      rfl
  · unfold cycleStore
    rcases h with h | h
    · rw [h]
      split <;> rfl
    · rw [h]
  · unfold cycleStore
    rw [ha, hsr]
    rfl
  · refine ⟨completionCommand r.purpose, ?_, completionCommand_row r.purpose⟩
    unfold cycleStore
    rw [hr, hsr]
    rfl
  · have hsp : samplePeriod l.active = period := hperiod.symm
    unfold cycleLine
    refine ⟨fun hoff => ?_, fun hon hlt => ?_, fun hon hle => ?_⟩
    · rw [if_pos (by simp [enabled, hoff])]
    · rw [if_neg (by simp [enabled, hon]), hsp, if_neg (Nat.not_le.2 hlt)]
    · rw [if_neg (by simp [enabled, hon]), hsp, if_pos hle]
  · rw [sampleTick_eq h n mark hsample] at htick
    obtain ⟨rfl, rfl⟩ := Prod.mk.inj htick
    have hmajority : majority l.recent.1 l.recent.2 mark = vote := by
      rw [Bool.eq_iff_iff, majority_iff]
      exact hvote.symm
    have hdisagree : disagree l.recent.1 l.recent.2 mark = mixed := by
      rw [← Bool.not_inj_iff, Bool.eq_iff_iff]
      simpa using (disagree_iff _ _ _).trans hmixed.symm
    have hidle := loopIdle_ticked (l := l) (mark := mark)
    rw [hmajority] at hidle
    refine ⟨⟨rfl, rfl⟩, ⟨rfl, rfl, ?_, ?_, ?_, ?_⟩, ⟨fun hs => ?_, fun hs => ?_, ?_, fun hs => ⟨?_, fun b hb => ?_⟩, fun space => ?_,
      fun code noise framing last => ?_⟩, ⟨rfl, ?_⟩, fun quiet hquiet => ?_, ⟨rfl, ?_⟩, fun hnone => ⟨?_, ?_⟩, ?_, fun kind i hg => ?_,
      ?_, ?_, ?_, ?_⟩
    · simp [mem_tickEvents, mem_runEvents, mem_samplerEvents, mem_sendingEvents]
    · simp [mem_tickEvents, mem_runEvents, mem_samplerEvents, mem_sendingEvents]
    · simp [mem_tickEvents, mem_runEvents, mem_samplerEvents, mem_sendingEvents]
    · simp [mem_tickEvents, mem_runEvents, mem_samplerEvents, mem_sendingEvents]
    · simp only [tickedLine, tickedSampler, hs]
    · simp only [tickedLine, tickedSampler, hs]
    · simp [mem_tickEvents, mem_runEvents, mem_samplerEvents, mem_sendingEvents]
    · simp only [tickedLine, tickedSampler, hs, heardSampler, hmajority, hdisagree]
    · have hcode := heardSampler_code (mark := mark) (recent := l.recent) (x := l.sampler) hb (hsample hs)
      rw [hmajority] at hcode
      simp only [tickedLine, tickedSampler, hs]
      exact hcode
    · simp [mem_tickEvents, mem_runEvents, mem_samplerEvents, mem_sendingEvents, hmajority]
    · simp [mem_tickEvents, mem_runEvents, mem_samplerEvents, mem_sendingEvents, hmajority, hdisagree]
    · simp [mem_tickEvents, mem_runEvents, mem_samplerEvents, mem_sendingEvents]
    · have hq : loopIdle mark { l with sampler := tickedSampler mark l.recent l.sampler } = quiet := by
        rw [Bool.eq_iff_iff, hidle]
        exact hquiet.symm
      refine ⟨?_, ?_, ?_, ?_⟩
      · simp only [tickedLine, hq]
      · simp [mem_tickEvents, mem_runEvents, mem_samplerEvents, mem_sendingEvents, hq]
      · simp only [tickedLine, hq]
      · simp [mem_tickEvents, mem_runEvents, mem_samplerEvents, mem_sendingEvents, hq]
    · simp [mem_tickEvents, mem_runEvents, mem_samplerEvents, mem_sendingEvents]
    · simp [tickedLine, hnone]
    · simp [tickedLine, sendLevel, hnone]
    · simp [mem_tickEvents, mem_runEvents, mem_samplerEvents, mem_sendingEvents]
    · refine ⟨fun hlt => ?_, fun hle => ?_⟩
      · simp [tickedLine, sendLevel, sentOn, hg, Nat.not_le.2 hlt]
      · simp [tickedLine, sendLevel, sentOn, hg, hle]
    · simp [mem_tickEvents, mem_runEvents, mem_samplerEvents, mem_sendingEvents]
    · simp [mem_tickEvents, mem_runEvents, mem_samplerEvents, mem_sendingEvents]
    · simp [mem_tickEvents, mem_runEvents, mem_samplerEvents, mem_sendingEvents]
    · have hechoes : echoes l = true ↔ l.active.type = .party ∧
          (l.tx.state = .preamble ∨ l.tx.state = .calling ∨ l.tx.state = .sending ∨ l.tx.state = .breakIn) := by
        unfold echoes isParty
        simp [or_assoc]
      have hmem : Instr.collision n ∈ tickEvents h n mark l ↔ ∃ kind i, l.tx.sending = some ⟨kind, i⟩ ∧ i + 1 < kind.length ∧
          collisionSample kind (i + 1) = true ∧ echoes l = true ∧ vote = false := by
        simp [mem_tickEvents, mem_runEvents, mem_samplerEvents, mem_sendingEvents, hmajority]
      rw [hmem]
      constructor
      · rintro ⟨kind, i, hg, hlt, hcheck, hline, hfalse⟩
        obtain ⟨element, rfl, hlen, hlevel⟩ := (collisionSample_iff kind i).1 ⟨hlt, hcheck⟩
        obtain ⟨hparty, hstate⟩ := hechoes.1 hline
        exact ⟨hfalse, hparty, hstate, kind, element, hg, hlen, hlevel⟩
      · rintro ⟨hfalse, hparty, hstate, kind, element, hg, hlen, hlevel⟩
        obtain ⟨hlt, hcheck⟩ := (collisionSample_iff kind (8 * element + 4)).2 ⟨element, rfl, hlen, hlevel⟩
        exact ⟨kind, _, hg, hlt, hcheck, hechoes.2 ⟨hparty, hstate⟩, hfalse⟩

end Sys2Proof.Transmitters

/-! SUPPORT. The office clock, and a delivery that rejoins its queue at a new value of it. -/

namespace Sys2Proof.Machine

variable {s e t u : State} {n : LineNo} {d : DeliveryNo}

/-! ## Deliveries that are due (R112) -/

/-- Delivery `d` is WAITING and its retry time is reached. -/
abbrev Due (s : State) (d : DeliveryNo) : Prop :=
  s.du.entries[d.val].state = .waiting ∧ s.du.entries[d.val].retryTime.toNat ≤ s.office.clock.toNat

theorem releaseOne_notDue (h : ¬ Due s d) : releaseOne d s = s := by
  unfold releaseOne
  exact if_neg h

/-- Delivery `d` QUEUED and at the tail of the queue of line `n` (R106, R112). -/
def requeued (n : LineNo) (d : DeliveryNo) (s : State) : State :=
  { s with du := { s.du with
      entries := s.du.entries.set d { s.du.entries[d] with state := .queued }
      queues := s.du.queues.set n (s.du.queues[n] ++ [d]) } }

theorem entries_set_ne (v : Vector Delivery 256) (x : Delivery) {j : DeliveryNo} (h : j ≠ d) :
    (v.set d.val x d.isLt)[j.val] = v[j.val] := Vector.getElem_set_ne d.isLt j.isLt fun he => h (Fin.ext he.symm)

theorem foldl_releaseOne_none {ds : List DeliveryNo} (h : ∀ d ∈ ds, ¬ Due s d) :
    ds.foldl (fun s d => releaseOne d s) s = s := by
  induction ds with
  | nil => rfl
  | cons d ds ih =>
    rw [List.foldl_cons, releaseOne_notDue (h d (by simp))]
    exact ih fun x hx => h x (by simp [hx])

/-- With no delivery due the clock alone changes. -/
theorem releaseWaiting_none (h : ∀ d, ¬ Due s d) : releaseWaiting s = s := foldl_releaseOne_none fun d _ => h d

/-- With one delivery due it alone rejoins its queue. -/
theorem releaseWaiting_one (hothers : ∀ j, j ≠ d → ¬ Due s j) (hu : releaseOne d s = u)
    (hafter : ∀ j, j ≠ d → ¬ Due u j) : releaseWaiting s = u := by
  obtain ⟨front, back, hsplit⟩ := List.append_of_mem (List.mem_finRange d)
  have hnodup : (front ++ d :: back).Nodup := hsplit ▸ List.nodup_finRange 256
  have hfront : d ∉ front := fun hm => (List.disjoint_of_nodup_append hnodup) hm (by simp)
  have hback : d ∉ back := (List.nodup_cons.1 (List.nodup_append.1 hnodup).2.1).1
  unfold releaseWaiting
  rw [hsplit, List.foldl_append, List.foldl_cons,
    foldl_releaseOne_none fun j hj => hothers j fun h => hfront (h ▸ hj), hu,
    foldl_releaseOne_none fun j hj => hafter j fun h => hback (h ▸ hj)]

/-! ## A delivery that joins its queue (R106, R160) -/

theorem preemptionTest_away (h : s.lines[n.val].tx.hand = none) : preemptionTest n s = s := by
  unfold preemptionTest
  simp only [Fin.getElem_fin, h]

theorem preemptionTest_keeps {h : Hand} (hh : s.lines[n.val].tx.hand = some h)
    (hk : s.lines[n.val].tx.breakInPending = true ∨ effectiveClass s s.du.entries[h.number] < 2) :
    preemptionTest n s = s := by
  unfold preemptionTest
  simp only [Fin.getElem_fin, hh]
  rw [if_neg]
  rintro ⟨-, hp, hc⟩
  rcases hk with hk | hk
  · exact hp hk
  · exact absurd hc (Nat.not_le.2 hk)

/-- Break-in pending is set; with no frame in progress it is acted on (R160, R161). -/
theorem preemptionTest_sets {h : Hand} (hh : s.lines[n.val].tx.hand = some h)
    (hst : s.lines[n.val].tx.state = .calling ∨ s.lines[n.val].tx.state = .answerWait ∨ s.lines[n.val].tx.state = .sending)
    (hp : s.lines[n.val].tx.breakInPending = false) (hc : 2 ≤ effectiveClass s s.du.entries[h.number]) :
    preemptionTest n s = if betweenFrames s.lines[n.val].tx then
        (deferredRequest n (updTx n (fun t => { t with breakInPending := true }) s)).getD
          (updTx n (fun t => { t with breakInPending := true }) s)
      else updTx n (fun t => { t with breakInPending := true }) s := by
  unfold preemptionTest
  simp only [Fin.getElem_fin, hh]
  rw [if_pos ⟨hst, by rw [hp]; exact Bool.false_ne_true, hc⟩]

/-- A delivery that joins the queue of a line which is not IDLE. -/
theorem enqueue_away (hn : s.du.entries[d].line = n) (hi : s.lines[n.val].tx.state ≠ .idle) : enqueue d s =
    if s.du.entries[d].cls = 0 then preemptionTest n (updQueue n (fun q => q ++ [d]) s)
    else updQueue n (fun q => q ++ [d]) s := by
  subst hn
  unfold enqueue
  dsimp only
  rw [if_neg (by exact hi)]

theorem releaseOne_due (hd : Due s d) (hn : s.du.entries[d].line = n) (hi : s.lines[n.val].tx.state ≠ .idle) :
    releaseOne d s = if s.du.entries[d].cls = 0 then preemptionTest n (requeued n d s) else requeued n d s := by
  have hentry : (updEntry d (fun e => { e with state := .queued }) s).du.entries[d] =
      { s.du.entries[d] with state := .queued } := by
    simp [updEntry]
  have hjoin := enqueue_away (n := n) (s := updEntry d (fun e => { e with state := .queued }) s) (d := d)
    (by rw [hentry]; exact hn) hi
  rw [hentry] at hjoin
  unfold releaseOne
  dsimp only
  rw [if_pos (by exact hd)]
  exact hjoin

/-! ## The victim of a flash (R161) -/

theorem updTx_dropHand (f : Transmitter → Transmitter) (s : State) : updTx n f (dropHand n s) =
    { updTx n (fun t => f (droppedTx t)) s with port := leftPort (.transmitter n) s.port } := by
  rw [dropHand_eq]
  exact congrArg (fun x : State => { x with port := leftPort (.transmitter n) s.port }) (updTx_updTx f droppedTx s)

theorem updTx_dropHand_offerReport (f : Transmitter → Transmitter) (r : Record) (s : State) :
    updTx n f (dropHand n (offerReport r s)) = offerReport r
      { updTx n (fun t => f (droppedTx t)) s with port := leftPort (.transmitter n) s.port } := by
  rw [updTx_dropHand]
  rfl

/-- The transmitter with a break-in owed. -/
def brokenInTx (t : Transmitter) : Transmitter := { t with state := .breakIn, owed := some .breakIn, send := true }

/-- The delivery in hand goes back to the head of its queue for the flash. -/
theorem preemptVictim_plain {h : Hand} (hc : s.du.entries[h.number].cancelPending = false)
    (hl : s.du.entries[h.number].line = n) (ha : s.du.active[n] = some h.number) (hr : s.du.rewrites = []) :
    preemptVictim n h s = offerReport
      (plainReport .deliveryInterrupted n.val (BitVec.ofNat 16 h.number.val) 5 s.office.clock)
      { updTx n (fun t => brokenInTx (droppedTx t))
          { s with du := interruptedDelivery s n h.number s.lines[n.val].tx.textBegun } with
        port := leftPort (.transmitter n) s.port } := by
  unfold preemptVictim
  rw [interruptEntry_plain hc hl ha hr]
  exact updTx_dropHand_offerReport brokenInTx _ _

theorem deferredRequest_preempts {h : Hand} (hh : s.lines[n.val].tx.hand = some h)
    (hd : isParty s.lines[n.val] = true ∨ s.lines[n.val].tx.distantBreak = false)
    (hc : s.du.entries[h.number].cancelPending = false) (hb : s.lines[n.val].tx.breakInPending = true) :
    deferredRequest n s = some (preemptVictim n h s) := by
  have hdistant : (s.lines[n.val].tx.distantBreak && !isParty s.lines[n.val]) = false := by
    rcases hd with hd | hd <;> simp [hd]
  unfold deferredRequest
  simp only [Fin.getElem_fin, hh]
  rw [if_neg (by rw [hdistant]; exact Bool.false_ne_true), if_neg (by exact (by rw [← Fin.getElem_fin, hc]; exact Bool.false_ne_true)),
    if_pos hb]

/-- The clock's new value brings back the one delivery that is due. -/
theorem setClock_one {v : BitVec 32} {o : OfficeControl} (ho : o = { s.office with clock := v, divider := 0 })
    (hothers : ∀ j, j ≠ d → ¬ Due { s with office := o } j)
    (hu : releaseOne d { s with office := o } = u) (hafter : ∀ j, j ≠ d → ¬ Due u j) : setClock v s = u := by
  subst ho
  exact releaseWaiting_one hothers hu hafter

theorem setClock_none {v : BitVec 32} {o : OfficeControl} (ho : o = { s.office with clock := v, divider := 0 })
    (hothers : ∀ j, ¬ Due { s with office := o } j) : setClock v s = { s with office := o } := by
  subst ho
  exact releaseWaiting_none hothers

theorem notDue_of_noneDue {v : BitVec 32} {o : OfficeControl} (h : NoneDue v s) (ho : o.clock = v) (j : DeliveryNo) :
    ¬ Due { s with office := o } j := by
  rintro ⟨hw, hle⟩
  have hlt := h j hw
  subst ho
  exact absurd hle (Nat.not_le.2 hlt)

theorem snoop_setLow {v : Word} (hrun : running s = true) : snoop 23 v s = setLow v s :=
  snoop_running hrun (by decide) (fun h => absurd h (by decide)) (by decide)

/-- A clock set with no delivery due (R59; log 42). -/
theorem setLow_none {v : Word} {time : BitVec 32} (hv : s.office.captured.getD 0 ++ v = time) (h : NoneDue time s) :
    setLow v s = { s with office := { s.office with
      clock := time, divider := 0, captured := none
      advanceVoid := s.office.advanceVoid || decide (2457600 ≤ s.office.divider) } } := by
  unfold setLow
  rw [hv]
  exact setClock_none rfl (notDue_of_noneDue (s := updOffice _ s) h rfl)

end Sys2Proof.Machine

namespace Sys2Proof.Deliveries
open Sys2Proof.Machine

/-- Settles O42: the clock's commands with no delivery due, and one delivery that rejoins its queue. -/
theorem clockCommands : Obligations.ClockCommands := by
  have hadvance : ∀ s : State, Quiet s → running s = true → exec .clockAdvance s = .next (settle (advanceClock s)) :=
    fun s hq hrun => by
      show event (!s.resetIn && running s) advanceClock s = _
      rw [hq.1, hrun]
      rfl
  refine ⟨⟨fun s hq hrun hv hnone => ?_, fun s hq hrun hv => ?_, fun s v h hrun => ?_, fun s v hi time h hrun hhi htime hnone => ?_⟩,
    fun s d n o queue hq hrun hv hw hdue hn hothers ho hqueue => ?_⟩
  · have hbody : advanceClock s = { s with office := { s.office with clock := s.office.clock + 1, divider := 0 } } := by
      unfold advanceClock
      rw [if_neg (by rw [hv]; exact Bool.false_ne_true)]
      exact setClock_none rfl (notDue_of_noneDue hnone rfl)
    rw [hadvance s hq hrun, hbody, settle_quiet (by exact hq)]
  · have hbody : advanceClock s = { s with office := { s.office with advanceVoid := false } } := if_pos hv
    rw [hadvance s hq hrun, hbody, settle_quiet (by exact hq)]
  · exact exec_pageCommand_ends (off := 22) rfl h (by
      rw [snoop_running (by exact hrun) (by decide) (fun h => absurd h (by decide)) (by decide)]
      rfl) h.1
  · have htime' : s.office.captured.getD 0 ++ v = time := by
      refine BitVec.eq_of_toNat_eq ?_
      have hhi' : s.office.captured.getD 0 = hi := by
        rcases hhi with hc | ⟨hc, rfl⟩ <;> rw [hc] <;> rfl
      rw [toNat_append_eq, hhi', htime]
      rfl
    exact exec_pageCommand_ends (off := 23) rfl h ((snoop_setLow (by exact hrun)).trans (setLow_none htime' hnone)) h.1
  · obtain ⟨s0, hs0⟩ : ∃ s0, s0 = { s with office := o } := ⟨_, rfl⟩
    have hdue0 : Due s0 d := by
      rw [hs0, ho]
      exact ⟨hw, hdue⟩
    have hothers0 : ∀ j, j ≠ d → ¬ Due s0 j := fun j hj hdj => by
      rw [hs0, ho] at hdj
      exact absurd hdj.2 (Nat.not_le.2 (hothers j hj hdj.1))
    have hbody : ∀ u, releaseOne d s0 = u → (∀ j, j ≠ d → ¬ Due u j) →
        exec .clockAdvance s = .next (settle u) := fun u hu hafter => by
      rw [hs0] at hothers0 hu
      rw [hadvance s hq hrun]
      unfold advanceClock
      rw [if_neg (by rw [hv]; exact Bool.false_ne_true), setClock_one ho hothers0 hu hafter]
    have hafter : ∀ j, j ≠ d → ¬ Due (requeued n d s0) j := fun j hj hdj => by
      refine hothers0 j hj ?_
      have hsame : (requeued n d s0).du.entries[j.val] = s0.du.entries[j.val] :=
        entries_set_ne _ _ hj
      rw [Due, hsame] at hdj
      exact hdj
    have hline : s0.du.entries[d].line = n := by rw [hs0]; exact hn.symm
    have hquiet : ∀ u : State, Quiet u → Quiet (requeued n d u) := fun _ h => h
    have hq0 : Quiet (requeued n d s0) := by rw [hs0]; exact hq
    have hsame : requeued n d s0 = { s with
        office := o
        du := { s.du with
          entries := s.du.entries.set d { s.du.entries[d] with state := .queued }
          queues := s.du.queues.set n queue } } := by
      rw [hs0, hqueue]
      rfl
    refine ⟨fun hi hcls => ?_, fun h hcls hh hne hst => ⟨fun hkeeps => ?_, fun hp hcls2 => ⟨fun hsend => ?_,
      fun hsend hdist hcancel hl hact hrew => ?_⟩⟩⟩
    · have hrelease : releaseOne d s0 = requeued n d s0 := by
        rw [releaseOne_due hdue0 hline (by rw [hs0]; exact hi)]
        split
        · next h0 =>
          have hnone : s.lines[n].tx.hand = none := hcls.resolve_left fun h => h (by rw [hs0] at h0; exact h0)
          exact preemptionTest_away (by rw [hs0]; exact hnone)
        · rfl
      rw [hbody _ hrelease hafter, settle_quiet hq0, hsame]
    all_goals
      have hidle : s0.lines[n.val].tx.state ≠ .idle := by
        rw [hs0]
        exact fun h => by rcases hst with h' | h' | h' <;> exact TxState.noConfusion (h'.symm.trans h)
      have hline0 : (requeued n d s0).lines[n.val] = s.lines[n.val] := by
        rw [hs0]
        rfl
      have hclass : effectiveClass (requeued n d s0) (requeued n d s0).du.entries[h.number] =
          effectiveClass { s with office := o } s.du.entries[h.number] := by
        rw [hs0, show (requeued n d { s with office := o }).du.entries[h.number] = s.du.entries[h.number] from
          entries_set_ne _ _ hne]
        rfl
      have hrelease : releaseOne d s0 = preemptionTest n (requeued n d s0) := by
        rw [releaseOne_due hdue0 hline hidle, if_pos (by rw [hs0]; exact hcls)]
      have hh0 : (requeued n d s0).lines[n.val].tx.hand = some h := by
        rw [hline0]
        exact hh
    · rw [preemptionTest_keeps hh0 (by rw [hclass, hline0]; exact hkeeps)] at hrelease
      rw [hbody _ hrelease hafter, settle_quiet hq0, hsame]
    all_goals
      have hset := preemptionTest_sets hh0 (by rw [hline0]; exact hst) (by rw [hline0]; exact hp) (by rw [hclass]; exact hcls2)
      rw [hline0] at hset
    · have hbetween : betweenFrames s.lines[n.val].tx = false := by
        obtain ⟨g, hg⟩ := Option.ne_none_iff_exists'.1 hsend
        simp only [betweenFrames, ← Fin.getElem_fin, hg, Option.isNone_some, Bool.and_false]
      rw [hset, if_neg (by rw [hbetween]; exact Bool.false_ne_true)] at hrelease
      rw [hbody _ hrelease hafter, settle_quiet (quiet_updTx _ hq0), hsame]
      rfl
    · have hbetween : betweenFrames s.lines[n.val].tx = true := by
        unfold betweenFrames
        rcases hst with h' | h' | h' <;> simp only [← Fin.getElem_fin, h', hsend] <;> rfl
      obtain ⟨s1, hs1⟩ : ∃ s1, s1 = updTx n (fun t => { t with breakInPending := true }) (requeued n d s0) := ⟨_, rfl⟩
      have hline1 : s1.lines[n.val] = { s.lines[n.val] with tx := { s.lines[n.val].tx with breakInPending := true } } := by
        rw [hs1, updTx_line, hline0]
      have hdu1 : s1.du = { s.du with
          entries := s.du.entries.set d { s.du.entries[d] with state := .queued }
          queues := s.du.queues.set n queue } := by
        rw [hs1, hsame]
        rfl
      have hentry : s1.du.entries[h.number] = s.du.entries[h.number] := by
        rw [hdu1]
        exact entries_set_ne _ _ hne
      have hduE : interruptedDelivery s1 n h.number s.lines[n.val].tx.textBegun = { s.du with
          entries := (s.du.entries.set d { s.du.entries[d] with state := .queued }).set h.number
            { s.du.entries[h.number] with
              state := .queued, repeatFlag := s.du.entries[h.number].repeatFlag || s.lines[n].tx.textBegun }
          queues := s.du.queues.set n (h.number :: queue)
          active := s.du.active.set n none } := by
        unfold interruptedDelivery
        rw [hentry, hdu1]
        simp
      rw [hset, if_pos hbetween, ← hs1, deferredRequest_preempts (by rw [hline1]; exact hh)
        (by rw [hline1]; exact hdist.imp_left fun h => by simpa [isParty] using h) (by rw [hentry]; exact hcancel) (by rw [hline1]),
        Option.getD_some, preemptVictim_plain (by rw [hentry]; exact hcancel) (by rw [hentry]; exact hl)
        (by rw [hdu1]; exact hact) (by rw [hdu1]; exact hrew), hline1, hduE] at hrelease
      have hclock : s1.office.clock = s.office.clock + 1 := by
        rw [hs1, hsame, ho]
        rfl
      rw [hclock] at hrelease
      have hlines : ∀ u : DeliveryUnit, updTx n (fun t => brokenInTx (droppedTx t)) { s1 with du := u } =
          { updTx n (fun t => brokenInTx (droppedTx { t with breakInPending := true })) { s with office := o } with du := u } :=
        fun u => by
          rw [hs1, hsame]
          exact congrArg (fun x : State => { x with du := u }) (updTx_updTx (n := n)
            (fun t => brokenInTx (droppedTx t)) (fun t => { t with breakInPending := true }) { s with office := o })
      rw [hlines] at hrelease
      refine ⟨_, hbody _ hrelease fun j hj hdj => ?_, offers_settle _ (by exact hq)⟩
      refine hothers0 j hj ?_
      by_cases hjh : j = h.number
      · subst hjh
        have hself : ∀ (x : Vector Delivery 256) (y : Delivery), (x.set h.number.val y h.number.isLt)[h.number.val] = y :=
          fun x y => Vector.getElem_set_self _
        exact DeliveryState.noConfusion ((congrArg Delivery.state (hself _ _)).symm.trans hdj.1)
      · have hkept : ∀ x y : Delivery, ((s.du.entries.set d.val x d.isLt).set h.number.val y h.number.isLt)[j.val] =
            s0.du.entries[j.val] := fun x y =>
          ((entries_set_ne _ _ hjh).trans (entries_set_ne _ _ hj)).trans (by rw [hs0])
        have hclock0 : s0.office.clock = o.clock := by rw [hs0]
        refine ⟨(congrArg Delivery.state (hkept _ _)).symm.trans hdj.1, ?_⟩
        rw [hclock0, ← hkept _ _]
        exact hdj.2

end Sys2Proof.Deliveries

/-! SUPPORT. The cancel word, and a head rewrite that is placed at once with the report and the walk that wait on it. -/

namespace Sys2Proof.Machine

variable {s e t u : State} {n : LineNo} {d : DeliveryNo} {o : Offer} {p : StorePort}

/-! ## One report that waited on a head rewrite (R104, R177) -/

/-- The machine `e` with the Store Port `p` and the one offer `o`. -/
def offering (o : Offer) (p : StorePort) (e : State) : State :=
  { e with port := p, report := { e.report with offers := [o] } }

/-- The machine `e` with the Store Port `p` and one record more accepted. -/
def accepted (p : StorePort) (e : State) : State := { e with port := p, report := { e.report with fill := e.report.fill + 1 } }

theorem takeUntil_one {f : Offer → Bool} (hf : f o = true) (ho : e.report.offers = []) (hr : RingRoom 1 e) (hp : PortRoom 4 p) :
    takeUntil f (offering o p e) = accepted (placedAll (reportWords e e.report.fill o.record) p) e := by
  have hone : oneOwner [o] = true := rfl
  have harrange : arrangeOffers e.freeCount [o] = [o] := by
    unfold arrangeOffers
    exact if_pos hone
  have huntil : offersUntil f [o] = 1 := by
    unfold offersUntil
    rw [List.reverse_singleton, List.takeWhile_cons_of_neg (by rw [hf]; exact Bool.false_ne_true)]
    rfl
  have hbody : takeUntil f (offering o p e) = takeReport o.record { e with port := p } := by
    unfold takeUntil
    have hoffers : (offering o p e).report.offers = [o] := rfl
    have hcount : (offering o p e).freeCount = e.freeCount := rfl
    dsimp only
    rw [hoffers, hcount, harrange, huntil, if_pos (by simp [hf]), hone]
    show takeReport o.record { e with port := p, report := { e.report with offers := [] } } = _
    rw [← ho]
  rw [hbody, takeReport_room (s := { e with port := p }) hr hp]
  rfl

/-- The end of an event with one such report and no walk that begins. -/
theorem settle_offering (h : Quiet e) (hr : RingRoom 1 e) (hp : PortRoom 4 p) :
    settle (offering o p e) = eventEnd (accepted (placedAll (reportWords e e.report.fill o.record) p) e) := by
  unfold settle
  rw [if_neg (by rw [show (offering o p e).resetIn = e.resetIn from rfl, h.1]; exact Bool.false_ne_true),
    runWalker_quiet _ (by exact h.2.1)]
  unfold takeOffers
  rw [takeUntil_one rfl h.2.2 hr hp]
  rfl

/-- An access with the Store Port stays with it as requests are placed. -/
theorem forwards_placedAll {a : Access} (rs : List Req) (h : p.fwd = some a ∨ p.cycle = some (.forwarded a)) :
    (placedAll rs p).fwd = some a ∨ (placedAll rs p).cycle = some (.forwarded a) := by
  induction rs generalizing p with
  | nil => exact h
  | cons r rs ih => exact ih ((forwards_place a r { State.reset with port := p }).2 h)

theorem samePart_accepted (p : StorePort) (e : State) : SamePart e (accepted p e) := rfl

/-- What the end of an event leaves of a machine with one record more accepted. -/
theorem eventEnd_accepted_part (p : StorePort) (e : State) : SamePart e (eventEnd (accepted p e)) ∧
    (eventEnd (accepted p e)).report.fill = e.report.fill + 1 ∧ requests (eventEnd (accepted p e)) = portRequests p := by
  refine ⟨?_, ?_, requests_eventEnd _⟩
  · have hpart : SamePart (accepted p e) (eventEnd (accepted p e)) := samePart_eventEnd _
    exact congrArg (fun x : State => { x with port := e.port, report := e.report }) hpart
  · rw [eventEnd_eq]
    rfl

theorem eventEnd_accepted {a : Access} (h : p.fwd = some a ∨ p.cycle = some (.forwarded a)) :
    Forwards a (eventEnd (accepted p e)) ∧ SamePart e (eventEnd (accepted p e)) ∧
      (eventEnd (accepted p e)).report.fill = e.report.fill + 1 ∧ requests (eventEnd (accepted p e)) = portRequests p :=
  ⟨(forwards_eventEnd a _).2 h, eventEnd_accepted_part p e⟩

/-! ## A walk that begins as its message's last delivery is freed (R31, R177) -/

/-- The requests with which a walk over a chain of more than one block begins (R34, R37). -/
def firstWalkRequests (s : State) (r : WalkRequest) : List Req :=
  (if r.kind = .handOver then [heldReasonReq s r] else []) ++ [linkRead s r.first .walkLink]

theorem startWalk_room {r : WalkRequest} (hk : r.kind = .release ∨ r.kind = .handOver) (hb : blockState s r.first = some .owned)
    (hc : 2 ≤ r.count) (hl : s.walker.links = []) (hp : PortRoom 2 s.port) :
    startWalk r s = atTodo (newWalk r) none [] (placedAll (firstWalkRequests s r) s.port) s := by
  have hplain : ∀ q ∈ firstWalkRequests s r, q.purpose ≠ .freeLink := by
    unfold firstWalkRequests
    intro q hq
    rcases hk with hk | hk <;> simp [hk] at hq
    · subst hq
      exact Purpose.noConfusion
    · rcases hq with rfl | rfl <;> exact Purpose.noConfusion
  have hlen : (firstWalkRequests s r).length ≤ 2 := by
    unfold firstWalkRequests
    rcases hk with hk | hk <;> simp [hk]
  have hstart : startWalk r s = pumpWalker (atTodo (newWalk r) s.walker.offered (firstWalkRequests s r) s.port s) := by
    unfold startWalk firstWalkRequests
    rcases hk with hk | hk
    · rw [hk]
      dsimp only
      rw [reachCounted_reads (w := newWalk r) hb (by exact hc)]
      rfl
    · rw [hk]
      dsimp only
      unfold startHandOver
      dsimp only
      rw [if_neg (by simp [hb]), if_neg (by omega)]
      rfl
  rw [hstart, pumpWalker_room (s := atTodo (newWalk r) s.walker.offered (firstWalkRequests s r) s.port s) (w := newWalk r)
    (rs := firstWalkRequests s r) rfl (by simp [firstWalkRequests]) hl hplain (hp.mono hlen)]
  rfl

/-- The report that waited on the message's rewrite is taken before the walk that ends the message begins. -/
theorem settle_offering_walk {k : TransitNo} {r : WalkRequest} (hr : e.resetIn = false) (ho : e.report.offers = [])
    (hw : e.walker.walk = none) (hq : e.walker.queue = []) (hl : e.walker.links = []) (hring : RingRoom 1 e) (hp : PortRoom 6 p)
    (hoe : o.ending = some k) (hrt : r.transit = some k) (hk : r.kind = .release ∨ r.kind = .handOver)
    (hb : blockState e r.first = some .owned) (hc : 2 ≤ r.count) :
    settle (offering o p { e with walker := { e.walker with queue := [r] } }) = eventEnd (accepted
      (placedAll (firstWalkRequests e r) (placedAll (reportWords e e.report.fill o.record) p))
      { e with walker := { e.walker with walk := some (newWalk r), offered := none } }) := by
  have htaken : takeBefore r (offering o p e) = accepted (placedAll (reportWords e e.report.fill o.record) p) e :=
    takeUntil_one (by rw [hoe, hrt]; simp) ho hring (hp.mono (by decide))
  have hwords : (reportWords e e.report.fill o.record).length = 4 := by simp [reportWords]
  have hbegun : startWalk r (accepted (placedAll (reportWords e e.report.fill o.record) p) e) =
      atTodo (newWalk r) none [] (placedAll (firstWalkRequests e r) (placedAll (reportWords e e.report.fill o.record) p))
        (accepted (placedAll (reportWords e e.report.fill o.record) p) e) :=
    startWalk_room hk hb hc hl (PortRoom.placedAll (k := 2) (by rw [hwords]; exact hp))
  have hqueue : ({ e.walker with queue := [] } : ChainWalker) = e.walker := by rw [← hq]
  have hpopped : updWalker (fun w => { w with queue := [] }) (offering o p { e with walker := { e.walker with queue := [r] } }) =
      offering o p e := congrArg (fun w => offering o p { e with walker := w }) hqueue
  have hrun : ∀ m, runWalker (m + 2) (offering o p { e with walker := { e.walker with queue := [r] } }) =
      atTodo (newWalk r) none [] (placedAll (firstWalkRequests e r) (placedAll (reportWords e e.report.fill o.record) p))
        (accepted (placedAll (reportWords e e.report.fill o.record) p) e) := fun m => by
    rw [runWalker]
    have hwalk : (offering o p { e with walker := { e.walker with queue := [r] } }).walker.walk = none := hw
    have hhead : (offering o p { e with walker := { e.walker with queue := [r] } }).walker.queue = [r] := rfl
    rw [hwalk, hhead]
    dsimp only
    rw [hpopped, htaken, hbegun, runWalker_quiet _ (.inl (Option.some_ne_none _))]
  unfold settle
  rw [if_neg (by rw [show (offering o p { e with walker := { e.walker with queue := [r] } }).resetIn = e.resetIn from rfl, hr]; exact Bool.false_ne_true),
    show walkerRounds (offering o p { e with walker := { e.walker with queue := [r] } }) = 511 + 2 from rfl, hrun,
    takeOffers_none (by exact ho)]
  rfl

/-! ## The cancel word (R115, R116) -/

theorem snoop_cancelWord {v : Word} (hrun : running s = true) : snoop 21 v s = cancelWord v s :=
  snoop_running hrun (by decide) (fun h => absurd h (by decide)) (by decide)

section
variable {v : Word} (hd : d.val = v.toNat)
include hd

theorem cancelWord_free (h : s.du.entries[d].state = .free) : cancelWord v s = refuseCancel v s := by
  have hlt : v.toNat < 256 := hd ▸ d.isLt
  obtain rfl : d = ⟨v.toNat, hlt⟩ := Fin.ext hd
  unfold cancelWord
  rw [dif_pos hlt]
  dsimp only
  rw [h]

theorem cancelWord_waits (h : s.du.entries[d].state = .queued ∨ s.du.entries[d].state = .waiting) :
    cancelWord v s = cancelEntry d s := by
  have hlt : v.toNat < 256 := hd ▸ d.isLt
  obtain rfl : d = ⟨v.toNat, hlt⟩ := Fin.ext hd
  unfold cancelWord
  rw [dif_pos hlt]
  dsimp only
  rcases h with h | h <;> rw [h]

theorem cancelWord_active (h : s.du.entries[d].state = .active) :
    cancelWord v s = if s.du.entries[d].cancelPending then s else setCancelPending d s := by
  have hlt : v.toNat < 256 := hd ▸ d.isLt
  obtain rfl : d = ⟨v.toNat, hlt⟩ := Fin.ext hd
  unfold cancelWord
  rw [dif_pos hlt]
  dsimp only
  rw [h]

end

/-- While a frame is in progress the request waits for its boundary (R116, R136). -/
theorem setCancelPending_sending (hn : s.du.entries[d].line = n) (hs : s.lines[n.val].tx.sending ≠ none)
    (hw : s.lines[n.val].tx.state ≠ .answerWait) :
    setCancelPending d s = updEntry d (fun e => { e with cancelPending := true }) s := by
  subst hn
  obtain ⟨g, hg⟩ := Option.ne_none_iff_exists'.1 hs
  have hstate : (s.lines[s.du.entries[d].line.val].tx.state == .answerWait) = false := by simpa using hw
  unfold setCancelPending inPause betweenFrames
  simp only [Fin.getElem_fin] at hg hstate ⊢
  rw [hg, hstate]
  simp

/-- The walk that ends a message with its last delivery (R177). -/
def lastWalk (k : TransitNo) (e : Transit) (count : Nat) : List WalkRequest :=
  if count = 0 then
    [⟨if e.autoRelease then .release else .handOver, e.first, e.blockCount, e.origin, 0, some k⟩]
  else []

/-- The Delivery Unit after delivery `d`, which is not ACTIVE, is freed and its head rewrite is placed (R104, R114). -/
def leftDelivery (s : State) (n : LineNo) (d : DeliveryNo) (count : Nat) : DeliveryUnit :=
  { s.du with
    entries := s.du.entries.set d { s.du.entries[d] with state := .free, cancelPending := false }
    queues := s.du.queues.set n (s.du.queues[n].filter (fun x => x != d))
    transit := s.du.transit.set s.du.entries[d].transit.val { s.du.transit[s.du.entries[d].transit] with
      outstanding := count
      state := if count = 0 then .releasing else s.du.transit[s.du.entries[d].transit].state } }

/-- The Delivery Unit after it is freed, its head rewrite listed (R104, R114). -/
def freedAway (s : State) (n : LineNo) (d : DeliveryNo) (count : Nat) (reports : List Record) : DeliveryUnit :=
  { freedDelivery s n d count reports with active := s.du.active }

/-- The report of a cancel (R115). -/
def cancelledReport (s : State) (n : LineNo) (d : DeliveryNo) : Record :=
  plainReport .deliveryCancelled n.val (BitVec.ofNat 16 d.val) (BitVec.ofNat 16 s.du.entries[d].transit.val) s.office.clock

section
variable {count : Nat} (hl : s.du.entries[d].line = n) (ha : s.du.active[n] ≠ some d)
variable (hk : s.du.transit[s.du.entries[d].transit].outstanding = count + 1)
include hl ha hk

theorem cancelEntry_away : cancelEntry d s = pumpDelivery { s with du := freedAway s n d count [cancelledReport s n d] } := by
  unfold cancelEntry
  rw [freeEntry_away hl ha (by rw [hk]), deliveryRecord_eq hl]
  rfl

/-- With room the head rewrite of a cancel is placed at once and hands its report and its walk request over. -/
theorem cancelEntry_places (hr : s.du.rewrites = []) (ho : s.report.offers = []) (hp : PortRoom 1 s.port) :
    cancelEntry d s = offering ⟨cancelledReport s n d, true, if count = 0 then some s.du.entries[d].transit else none⟩
      (placedPort (byteReq (blockWord s s.du.transit[s.du.entries[d].transit].first 6) true (BitVec.ofNat 8 count) .delivery
        .rewrite) s.port)
      { s with
        du := leftDelivery s n d count
        walker := { s.walker with queue := s.walker.queue ++ lastWalk s.du.entries[d].transit s.du.transit[s.du.entries[d].transit] count } } := by
  obtain ⟨w, hw⟩ : ∃ w : Rewrite, w = ⟨blockWord s s.du.transit[s.du.entries[d].transit].first 6, count,
      [cancelledReport s n d], if count = 0 then
        some ⟨if s.du.transit[s.du.entries[d].transit].autoRelease then .release else .handOver,
          s.du.transit[s.du.entries[d].transit].first, s.du.transit[s.du.entries[d].transit].blockCount,
          s.du.transit[s.du.entries[d].transit].origin, 0, some s.du.entries[d].transit⟩
      else none⟩ := ⟨_, rfl⟩
  have hrew : (freedAway s n d count [cancelledReport s n d]).rewrites = [w] := by
    unfold freedAway freedDelivery
    dsimp only
    rw [hr, hw]
    rfl
  have hwalk : w.walk.toList = lastWalk s.du.entries[d].transit s.du.transit[s.du.entries[d].transit] count := by
    rw [hw]
    unfold lastWalk
    dsimp only
    split <;> rfl
  have hending : w.walk.bind (fun q => q.transit) = if count = 0 then some s.du.entries[d].transit else none := by
    rw [hw]
    dsimp only
    split <;> rfl
  have hdu : { freedAway s n d count [cancelledReport s n d] with rewrites := [] } = leftDelivery s n d count := by
    unfold freedAway freedDelivery leftDelivery
    rw [← hr]
  rw [cancelEntry_away hl ha hk,
    pumpDelivery_places (s := { s with du := freedAway s n d count [cancelledReport s n d] }) hp hrew, ← hwalk, ← hending, ← hdu]
  have hoffers : s.report.offers ++ w.reports.map (fun r => { record := r, attached := true, ending := w.walk.bind (fun q => q.transit) }) =
      [⟨cancelledReport s n d, true, w.walk.bind (fun q => q.transit)⟩] := by
    rw [ho, hw]
    rfl
  unfold offerAttached updReport offering
  dsimp only
  rw [hoffers]
  have hreq : rewriteReq w = byteReq (blockWord s s.du.transit[s.du.entries[d].transit].first 6) true (BitVec.ofNat 8 count)
      .delivery .rewrite := by
    rw [hw]
    rfl
  rw [hreq]

end

end Sys2Proof.Machine

namespace Sys2Proof.Deliveries
open Sys2Proof.Machine

/-- Settles O40: the cancel word by the state of the entry that it names. -/
theorem cancelWord : Obligations.CancelWord := by
  intro s v h hrun
  have hsnoop : ∀ e : State, Machine.cancelWord v (forward (pageWrite s 21 v .both) s) = e →
      snoop 21 v (forward (pageWrite s 21 v .both) s) = e := fun e he => (snoop_cancelWord (by exact hrun)).trans he
  have hcommand : pageCommand (.cancelWord v .both) = some (21, v, .both) := rfl
  have hv : ∀ d : DeliveryNo, d.val = v.toNat → BitVec.ofNat 16 d.val = v := fun d hd => by
    rw [hd, BitVec.ofNat_toNat, BitVec.setWidth_eq]
  have hreport : ∀ (d : DeliveryNo) (n : LineNo), d.val = v.toNat → cancelledReport s n d =
      plainReport .deliveryCancelled n.val v (BitVec.ofNat 16 s.du.entries[d].transit.val) s.office.clock := fun d n hd => by
    unfold cancelledReport
    rw [hv d hd]
  have hexec : exec (.cancelWord v .both) s = .next (settle (Machine.cancelWord v (forward (pageWrite s 21 v .both) s))) := by
    rw [exec_pageCommand hcommand, writeEvent_page (pageCommand_range hcommand).1 v .both h, if_pos rfl, hsnoop _ rfl]
  refine ⟨fun hfree => ?_, fun d hd => ⟨fun hst hc => ?_, fun hst hc hsend hwait => ?_, fun n k count hst hn hk ha hcount hw => ?_,
    fun n k count hst hn hk ha hcount hrew hroom hring hwalk => ?_,
    fun n k e hst hn hk ha he hcount hblocks hown hrew hroom hring hwalk hlinks => ?_⟩⟩
  · refine exec_pageCommand_offers (p := { s.port with fwd := some (pageWrite s 21 v .both) }) hcommand h (hsnoop _ ?_) rfl h.1
    rcases hfree with hv | ⟨d, hd, hst⟩
    · unfold Machine.cancelWord
      exact dif_neg (Nat.not_lt.2 hv)
    · exact cancelWord_free hd hst
  · refine exec_pageCommand_ends hcommand h (hsnoop _ ?_) h.1
    exact (cancelWord_active (s := forward (pageWrite s 21 v .both) s) hd hst).trans (if_pos hc)
  · refine exec_pageCommand_ends hcommand h (hsnoop _ ?_) h.1
    refine (cancelWord_active (s := forward (pageWrite s 21 v .both) s) hd hst).trans ((if_neg ?_).trans
      (setCancelPending_sending (s := forward (pageWrite s 21 v .both) s) rfl hsend hwait))
    show ¬ s.du.entries[d].cancelPending = true
    rw [hc]
    exact Bool.false_ne_true
  · subst hk
    obtain ⟨t, ht, hf, hpart, -⟩ := exec_pageCommand_part (s := s)
      (e := { s with du := freedAway s n d count [cancelledReport s n d] })
      (p := waitingPort .delivery { s.port with fwd := some (pageWrite s 21 v .both) }) hcommand h
      (hsnoop _ ((cancelWord_waits (s := forward (pageWrite s 21 v .both) s) hd hst).trans
        ((cancelEntry_away (s := forward (pageWrite s 21 v .both) s) hn.symm ha hcount).trans
          (pumpDelivery_waits (s := { forward (pageWrite s 21 v .both) s with du := freedAway s n d count [cancelledReport s n d] })
            hw (addRewrite_ne_nil _ _ _ _ _))))) (by unfold waitingPort; split <;> rfl) h.1
    refine ⟨t, ht, hf, ?_⟩
    rw [← hreport d n hd]
    exact hpart
  · subst hk
    obtain ⟨p, hp⟩ : ∃ p, p = placedPort (byteReq (blockWord s s.du.transit[s.du.entries[d].transit].first 6) true
      (BitVec.ofNat 8 count) .delivery .rewrite) { s.port with fwd := some (pageWrite s 21 v .both) } := ⟨_, rfl⟩
    obtain ⟨e, he⟩ : ∃ e : State, e = { s with
        du := leftDelivery s n d count
        walker := { s.walker with queue := s.walker.queue ++ lastWalk s.du.entries[d].transit s.du.transit[s.du.entries[d].transit] count } } := ⟨_, rfl⟩
    have hplaced : PortRoom 5 { s.port with fwd := some (pageWrite s 21 v .both) } := hroom
    have hcancel : Machine.cancelWord v (forward (pageWrite s 21 v .both) s) =
        offering ⟨cancelledReport s n d, true, if count = 0 then some s.du.entries[d].transit else none⟩ p e := by
      rw [he, hp]
      exact (cancelWord_waits (s := forward (pageWrite s 21 v .both) s) hd hst).trans
        (cancelEntry_places (s := forward (pageWrite s 21 v .both) s) hn.symm ha hcount hrew h.1.2.2 (hplaced.mono (by decide)))
    have hquiet : Quiet e := by
      rw [he]
      refine ⟨h.1.1, hwalk.elim (fun hpos => ?_) .inl, h.1.2.2⟩
      have hno : lastWalk s.du.entries[d].transit s.du.transit[s.du.entries[d].transit] count = [] := if_neg (by omega)
      rw [hno, List.append_nil]
      exact h.1.2.1
    have hfwd := forwards_placedAll (reportWords e e.report.fill (cancelledReport s n d)) (forwards_placed
      (r := byteReq (blockWord s s.du.transit[s.du.entries[d].transit].first 6) true (BitVec.ofNat 8 count) .delivery .rewrite)
      (p := { s.port with fwd := some (pageWrite s 21 v .both) }) rfl)
    rw [← hp] at hfwd
    obtain ⟨hf, hpart, hfill, hreqs⟩ := eventEnd_accepted (e := e) hfwd
    refine ⟨_, hexec.trans ?_, hf, ?_, hfill.trans (by rw [he]), hreqs.trans ?_⟩
    · rw [hcancel, settle_offering hquiet (by rw [he]; exact hring) (by rw [hp]; exact PortRoom.placed hplaced _)]
    · rw [he] at hpart ⊢
      exact hpart
    · rw [portRequests_placedAll, hp, portRequests_placed, ← hreport d n hd, he]
      exact List.append_assoc _ _ _
  · subst hk he
    have hcount0 : s.du.transit[s.du.entries[d].transit].outstanding = 0 + 1 := hcount
    have hqueue : s.walker.queue = [] := h.1.2.1.resolve_left (fun hne => hne hwalk)
    obtain ⟨r, hr⟩ : ∃ r : WalkRequest, r = ⟨if s.du.transit[s.du.entries[d].transit].autoRelease then .release else .handOver,
      s.du.transit[s.du.entries[d].transit].first, s.du.transit[s.du.entries[d].transit].blockCount,
      s.du.transit[s.du.entries[d].transit].origin, 0, some s.du.entries[d].transit⟩ := ⟨_, rfl⟩
    obtain ⟨q, hq⟩ : ∃ q, q = byteReq (blockWord s s.du.transit[s.du.entries[d].transit].first 6) true 0 .delivery .rewrite :=
      ⟨_, rfl⟩
    obtain ⟨p, hp⟩ : ∃ p, p = placedPort q { s.port with fwd := some (pageWrite s 21 v .both) } := ⟨_, rfl⟩
    obtain ⟨e, he⟩ : ∃ e : State, e = { s with du := leftDelivery s n d 0 } := ⟨_, rfl⟩
    have hcancel : Machine.cancelWord v (forward (pageWrite s 21 v .both) s) =
        offering ⟨cancelledReport s n d, true, some s.du.entries[d].transit⟩ p
          { e with walker := { e.walker with queue := [r] } } := by
      rw [he, hp, hq, hr]
      refine (cancelWord_waits (s := forward (pageWrite s 21 v .both) s) hd hst).trans
        ((cancelEntry_places (s := forward (pageWrite s 21 v .both) s) hn.symm ha hcount0 hrew h.1.2.2
          (PortRoom.mono hroom (by decide))).trans ?_)
      have hlist : (forward (pageWrite s 21 v .both) s).walker.queue ++ lastWalk s.du.entries[d].transit
          s.du.transit[s.du.entries[d].transit] 0 = lastWalk s.du.entries[d].transit s.du.transit[s.du.entries[d].transit] 0 :=
        congrArg (· ++ _) hqueue
      exact congrArg (fun l => offering _ _ { s with du := leftDelivery s n d 0, walker := { s.walker with queue := l } }) hlist
    have hfwd : (placedAll (firstWalkRequests e r) (placedAll (reportWords e e.report.fill (cancelledReport s n d)) p)).fwd =
          some (pageWrite s 21 v .both) ∨ (placedAll (firstWalkRequests e r)
            (placedAll (reportWords e e.report.fill (cancelledReport s n d)) p)).cycle = some (.forwarded (pageWrite s 21 v .both)) :=
      forwards_placedAll _ (forwards_placedAll _ (by rw [hp]; exact forwards_placed rfl))
    obtain ⟨hf, hpart, hfill, hreqs⟩ := eventEnd_accepted
      (e := { e with walker := { e.walker with walk := some (newWalk r), offered := none } }) hfwd
    refine ⟨_, hexec.trans ?_, hf, ?_, hfill.trans (by rw [he]), hreqs.trans ?_⟩
    · rw [hcancel, settle_offering_walk (k := s.du.entries[d].transit) (by rw [he]; exact h.1.1) (by rw [he]; exact h.1.2.2)
        (by rw [he]; exact hwalk) (by rw [he]; exact hqueue) (by rw [he]; exact hlinks) (by rw [he]; exact hring)
        (by rw [hp]; exact PortRoom.placed (p := { s.port with fwd := some (pageWrite s 21 v .both) }) hroom _) rfl (by rw [hr]) (by rw [hr]; dsimp only; split <;> simp)
        (by rw [he, hr]; exact hown) (by rw [hr]; exact hblocks)]
    · rw [he, hr] at hpart ⊢
      exact hpart
    · have hwalk2 : firstWalkRequests e r =
          (if s.du.transit[s.du.entries[d].transit].autoRelease then []
            else [byteReq (blockWord s s.du.transit[s.du.entries[d].transit].first 2) true 0 .walker .handOverHead]) ++
          [readReq (blockWord s s.du.transit[s.du.entries[d].transit].first 0) .walker .walkLink] := by
        unfold firstWalkRequests
        rw [he, hr]
        dsimp only
        by_cases hauto : s.du.transit[s.du.entries[d].transit].autoRelease = true
        · rw [if_pos hauto, if_pos hauto, if_neg WalkKind.noConfusion]
          rfl
        · rw [if_neg hauto, if_neg hauto, if_pos rfl]
          rfl
      rw [portRequests_placedAll, portRequests_placedAll, hwalk2, hp, portRequests_placed, ← hreport d n hd, hq, he]
      simp only [List.append_assoc, List.cons_append, List.nil_append]
      rfl

end Sys2Proof.Deliveries

/-! SUPPORT. The chain of an abandoned message is handed over, and a line goes OFF with a message in hand. -/

namespace Sys2Proof.Machine

variable {s e u : State} {n : LineNo} {given kept : List Abandonment} {pool : PoolUnit}

/-! ## Abandonment (R79 to R81) -/

/-- The receiver with its unplaced request dropped. -/
def droppedRx (r : Receiver) : Receiver := { r with unplaced := none }

/-- The same with the abandonments that wait. -/
def keptRx (kept : List Abandonment) (r : Receiver) : Receiver := { r with unplaced := none, abandon := kept }

/-- The machine whose receiver of line `n` has handed its chain over: the abandonments `given` go to the Chain Walker and
`kept` wait. -/
def abandonedAt (n : LineNo) (given kept : List Abandonment) (pool : PoolUnit) (s : State) : State :=
  { updRx n (keptRx kept) s with
    pool := pool
    port := leftPort (.receiver n) s.port
    walker := { s.walker with queue := s.walker.queue ++ given.map (abandonWalk n) } }

/-- The block pool with line `n`'s receiver off the starved list. -/
def unstarved (n : LineNo) (p : PoolUnit) : PoolUnit := { p with starved := p.starved.filter (fun m => m != n) }

theorem updRx_updRx (f g : Receiver → Receiver) (s : State) : updRx n f (updRx n g s) = updRx n (fun r => f (g r)) s :=
  updLine_updLine _ _ s

/-- The receiver off the waiting lists, before its chain is handed over. -/
def leftBehind (n : LineNo) (pool : PoolUnit) (s : State) : State :=
  { updRx n droppedRx s with pool := pool, port := leftPort (.receiver n) s.port }

theorem giveAbandoned_leftBehind {a : Abandonment} (hs : splitGiven (s.lines[n.val].rx.abandon ++ [a]) = (given, kept)) :
    giveAbandoned n (updRx n (fun x => { x with abandon := x.abandon ++ [a] }) (leftBehind n pool s)) =
      abandonedAt n given kept pool s := by
  have hline : (updRx n (fun x => { x with abandon := x.abandon ++ [a] }) (leftBehind n pool s)).lines[n.val].rx.abandon =
      s.lines[n.val].rx.abandon ++ [a] := by
    rw [updRx_line]
    show (updRx n droppedRx s).lines[n.val].rx.abandon ++ [a] = _
    rw [updRx_line]
    rfl
  have hrx : updRx n (fun r => { r with abandon := kept }) (updRx n (fun x => { x with abandon := x.abandon ++ [a] })
      (updRx n droppedRx s)) = updRx n (keptRx kept) s := by
    rw [updRx_updRx, updRx_updRx]
    rfl
  rw [giveAbandoned_eq (given := given) (kept := kept) (by rw [hline]; exact hs)]
  exact congrArg (fun x : State => { x with
    pool := pool, port := leftPort (.receiver n) s.port
    walker := { s.walker with queue := s.walker.queue ++ given.map (abandonWalk n) } }) hrx

theorem abandonChain_eq (n : LineNo) (s : State) : abandonChain n s =
    if 0 < linkedBlocks s.lines[n.val].rx then
      giveAbandoned n (updRx n (fun x => { x with
        abandon := x.abandon ++ [⟨s.lines[n.val].rx.asm.first.getD 0, linkedBlocks s.lines[n.val].rx, chainOutstanding n s⟩] })
        (if hasUnlinked s.lines[n.val].rx then
          returnBlock (s.lines[n.val].rx.asm.current.getD 0) (leftBehind n (unstarved n s.pool) s)
        else leftBehind n (unstarved n s.pool) s))
    else offerReport (record s .messageAbandoned n.val Config.none16 0)
      (if hasUnlinked s.lines[n.val].rx then
        returnBlock (s.lines[n.val].rx.asm.current.getD 0) (leftBehind n (unstarved n s.pool) s)
      else leftBehind n (unstarved n s.pool) s) := rfl

/-- A linked chain with a block. -/
theorem abandonChain_linked (hu : hasUnlinked s.lines[n.val].rx = false) (hb : 0 < s.lines[n.val].rx.asm.blockCount)
    (hs : splitGiven (s.lines[n.val].rx.abandon ++
      [⟨s.lines[n.val].rx.asm.first.getD 0, s.lines[n.val].rx.asm.blockCount, chainOutstanding n s⟩]) = (given, kept)) :
    abandonChain n s = abandonedAt n given kept (unstarved n s.pool) s := by
  have hlinked : linkedBlocks s.lines[n.val].rx = s.lines[n.val].rx.asm.blockCount := by simp [linkedBlocks, hu]
  rw [abandonChain_eq, hlinked, if_pos hb, if_neg (by simp [hu])]
  exact giveAbandoned_leftBehind hs

/-- A block whose link write is dropped goes back to the empty pool, and is not counted. -/
theorem abandonChain_unlinked {b count : Nat} (hu : hasUnlinked s.lines[n.val].rx = true)
    (hb : s.lines[n.val].rx.asm.blockCount = count + 1) (hc : 0 < count) (hcur : s.lines[n.val].rx.asm.current = some b)
    (hstarved : ∀ m ∈ s.pool.starved, m = n) (hfree : s.pool.free = [])
    (hs : splitGiven (s.lines[n.val].rx.abandon ++
      [⟨s.lines[n.val].rx.asm.first.getD 0, count, chainOutstanding n s⟩]) = (given, kept)) :
    abandonChain n s = abandonedAt n given kept { map := s.pool.map.set b .free, free := [b], starved := [] } s := by
  have hlinked : linkedBlocks s.lines[n.val].rx = count := by simp [linkedBlocks, hu, hb]
  have hnone : s.pool.starved.filter (fun m => m != n) = [] :=
    List.filter_eq_nil_iff.2 (fun m hm => by simp [hstarved m hm])
  have hback : returnBlock b (leftBehind n (unstarved n s.pool) s) =
      leftBehind n { map := s.pool.map.set b .free, free := [b], starved := [] } s := by
    rw [returnBlock_first (s := leftBehind n (unstarved n s.pool) s) hnone hfree, ← hnone]
    rfl
  rw [abandonChain_eq, hlinked, if_pos hc, if_pos hu, hcur]
  exact (congrArg (fun x => giveAbandoned n (updRx n _ x)) hback).trans (giveAbandoned_leftBehind hs)

/-- A message without a block is reported at once. -/
theorem abandonChain_blockless (hu : hasUnlinked s.lines[n.val].rx = false) (hb : s.lines[n.val].rx.asm.blockCount = 0) :
    abandonChain n s = offerReport (plainReport .messageAbandoned n.val 65535 0 s.office.clock)
      (abandonedAt n [] s.lines[n.val].rx.abandon (unstarved n s.pool) s) := by
  have hlinked : linkedBlocks s.lines[n.val].rx = 0 := by simp [linkedBlocks, hu, hb]
  have hsame : leftBehind n (unstarved n s.pool) s = abandonedAt n [] s.lines[n.val].rx.abandon (unstarved n s.pool) s := by
    unfold leftBehind abandonedAt
    have hline : updRx n droppedRx s =
        updRx n (keptRx s.lines[n.val].rx.abandon) s := updLine_congr rfl
    rw [hline, List.map_nil, List.append_nil]
    rfl
  rw [abandonChain_eq, hlinked, if_neg (Nat.lt_irrefl 0), if_neg (by simp [hu]), hsame]
  rfl

/-- No abandonment whose completions have not all come is given. -/
theorem splitGiven_waits {l : List Abandonment} (h : ∀ a ∈ l, 0 < a.remaining) : splitGiven l = ([], l) := by
  cases l with
  | nil => rfl
  | cons a l =>
    unfold splitGiven
    rw [if_neg (Nat.ne_of_gt (h a (List.mem_cons_self ..)))]

/-! ## Entry to OFF with a message (R80, R126, R127) -/

/-- The line OFF, its chain handed over. -/
def handedLine (kept : List Abandonment) (l : LineUnit) : LineUnit :=
  { offLine l with rx := { (offLine l).rx with unplaced := none, abandon := kept } }

/-- The machine whose line `n` has gone OFF and has handed its chain over. -/
def goneOff (n : LineNo) (given kept : List Abandonment) (pool : PoolUnit) (s : State) : State :=
  { updLine n (handedLine kept) s with
    pool := pool
    port := leftPort (.transmitter n) (leftPort (.receiver n) (leftPort (.transmitter n) s.port))
    walker := { s.walker with queue := s.walker.queue ++ given.map (abandonWalk n) } }

/-- The transmitter whose line is going OFF. -/
def stoppingTx (t : Transmitter) : Transmitter := { droppedTx t with stopping := true }

/-- The line as its message is abandoned. -/
def stoppingAt (n : LineNo) (s : State) : State := { updTx n stoppingTx s with port := leftPort (.transmitter n) s.port }

theorem stoppingAt_line (n : LineNo) (s : State) :
    (stoppingAt n s).lines[n.val] = { s.lines[n.val] with tx := stoppingTx s.lines[n.val].tx } := updTx_line stoppingTx s

theorem goOff_eq (n : LineNo) (s : State) : goOff n s = transmitterOff n (receiverOff n (stoppingAt n s)) := by
  unfold goOff
  have hstop : updTx n (fun t => { t with stopping := true }) (dropHand n s) = stoppingAt n s := by
    rw [dropHand_eq]
    exact congrArg (fun x : State => { x with port := leftPort (.transmitter n) s.port })
      (updTx_updTx (fun t => { t with stopping := true }) droppedTx s)
  rw [hstop]

theorem goOff_message {given kept : List Abandonment} {pool : PoolUnit} {rep : ReportUnit}
    (hm : hasMessage s.lines[n.val].rx = true)
    (hab : abandonChain n (stoppingAt n s) = { abandonedAt n given kept pool (stoppingAt n s) with report := rep }) :
    goOff n s = { goneOff n given kept pool s with report := rep } := by
  have hstop : hasMessage (stoppingAt n s).lines[n].rx = true := by
    rw [Fin.getElem_fin, stoppingAt_line]
    exact hm
  rw [goOff_eq, receiverOff]
  dsimp only
  rw [if_pos hstop, hab]
  have hline : updLine n (fun l => { l with
        tx := { Transmitter.reset with stale := l.tx.stale + l.tx.live }
        divider := 0, spaceRun := 0, markRun := 0, recent := (true, true), inBreak := false, recovery := false })
      (updLine n (fun l => { l with rx := clearReceiver .off l.rx, sampler := Sampler.reset })
        (updRx n (keptRx kept) (updTx n stoppingTx s))) = updLine n (handedLine kept) s := by
    unfold updRx updTx
    rw [updLine_updLine, updLine_updLine, updLine_updLine]
    refine updLine_congr ?_
    simp [handedLine, offLine, clearReceiver, keptRx, stoppingTx, droppedTx]
  exact congrArg (fun x : State => { x with
    pool := pool, report := rep
    port := leftPort (.transmitter n) (leftPort (.receiver n) (leftPort (.transmitter n) s.port))
    walker := { s.walker with queue := s.walker.queue ++ given.map (abandonWalk n) } }) hline

/-! ## What R80 and R81 add to a line that goes OFF -/

theorem hasMessage_iff {r : Receiver} : hasMessage r = true ↔ r.state = .header ∨ r.state = .text ∨ r.state = .closing := by
  unfold hasMessage
  simp [or_assoc]

theorem hasUnlinked_eq_false {r : Receiver} (h : ∀ q, r.unplaced = some q → q.purpose ≠ .rxLink) : hasUnlinked r = false := by
  unfold hasUnlinked
  cases hu : r.unplaced with
  | none => rfl
  | some q => simpa using h q hu

theorem placedCount_leftPort {i j : Issuer} : placedCount j { s with port := leftPort i s.port } = placedCount j s := rfl

/-- A change of a line that leaves what R81 changes to it. -/
def LeavesChain (g : LineUnit → LineUnit) : Prop := ∀ l kept,
  g { l with rx := keptRx kept l.rx } = { g l with rx := keptRx kept (g l).rx }

/-- The line `n` of `u` OFF, and changed by `g`. -/
def offAt (n : LineNo) (g : LineUnit → LineUnit) (p : StorePort) (rep : ReportUnit) (u : State) : State :=
  { updLine n (fun l => g (offLine l)) u with port := p, report := rep }

/-- What a chain's hand-over adds to the line OFF. -/
def offHanded (n : LineNo) (given kept : List Abandonment) (pool : PoolUnit) (e : State) : State :=
  { handedOver n kept e with
    pool := pool, walker := { e.walker with queue := e.walker.queue ++ given.map (abandonWalk n) } }

theorem offHanded_kept : offHanded n [] kept pool e = { handedOver n kept e with pool := pool } :=
  congrArg (fun q => { handedOver n kept e with pool := pool, walker := { e.walker with queue := q } }) (List.append_nil _)

theorem offHanded_waits (h : unstarved n e.pool = pool) : offHanded n [] kept pool e = handedOver n kept e := by
  rw [offHanded_kept, ← h]
  rfl

theorem updLine_goneOff {g : LineUnit → LineUnit} {p : StorePort} {rep : ReportUnit} (hg : LeavesChain g) :
    updLine n g (goneOff n given kept pool u) =
      { offHanded n given kept pool (offAt n g p rep u) with
        port := leftPort (.transmitter n) (leftPort (.receiver n) (leftPort (.transmitter n) u.port)), report := u.report } := by
  have hhanded : updLine n (fun l => { l with rx := keptRx kept l.rx }) (updLine n (fun l => g (offLine l)) u) =
      updLine n g (updLine n (handedLine kept) u) := by
    rw [updLine_updLine, updLine_updLine]
    exact updLine_congr (hg _ _).symm
  exact congrArg (fun x : State => { x with
    pool := pool
    port := leftPort (.transmitter n) (leftPort (.receiver n) (leftPort (.transmitter n) u.port))
    walker := { u.walker with queue := u.walker.queue ++ given.map (abandonWalk n) } }) hhanded.symm

/-- The chain of a message with a block, all its requests placed or its last block linked. -/
theorem chainOutstanding_placed (h : s.lines[n.val].rx.unplaced = none ∨ 1 < s.lines[n.val].rx.asm.storedLength) :
    chainOutstanding n s = placedCount (.receiver n) s := by
  unfold chainOutstanding chainPlaced
  simp only [Fin.getElem_fin]
  rcases h with h | h <;> simp [h]

theorem stoppingAt_outstanding (n : LineNo) (s : State) : chainOutstanding n (stoppingAt n s) = chainOutstanding n s := by
  unfold chainOutstanding
  simp only [Fin.getElem_fin, stoppingAt_line]
  rfl

section
variable {g : LineUnit → LineUnit} {P : State → Prop} {p0 : StorePort} {rep : ReportUnit}

/-- An event that takes line `n` OFF, in the words of `ReceiverGoesOff`. -/
theorem receiverGoesOff_of (hg : LeavesChain g) (he : e = offAt n g p0 rep u) (hrx : u.lines[n.val].rx = s.lines[n.val].rx)
    (hpool : u.pool = s.pool) (hwalker : u.walker = s.walker) (hcount : placedCount (.receiver n) u = placedCount (.receiver n) s) (hq : Quiet e)
    (hP : ∀ x p, Quiet x → x.report = e.report → portRequests p = portRequests u.port → p.fwd = u.port.fwd → p.cycle = u.port.cycle →
      updLine n g (goOff n u) = { x with port := p, report := u.report } → P x) : ReceiverGoesOff n s e P := by
  have hline : (stoppingAt n u).lines[n.val].rx = s.lines[n.val].rx := by rw [stoppingAt_line, hrx]
  have houtstanding : chainOutstanding n (stoppingAt n u) = chainOutstanding n s := by
    rw [stoppingAt_outstanding]
    unfold chainOutstanding
    simp only [Fin.getElem_fin, hrx, hcount]
  have hstop : (stoppingAt n u).pool = s.pool := hpool
  have hhanded : ∀ {given kept : List Abandonment} {pool : PoolUnit}, hasMessage s.lines[n.val].rx = true →
      (given = [] ∨ e.walker.walk ≠ none) →
      abandonChain n (stoppingAt n u) = abandonedAt n given kept pool (stoppingAt n u) →
      P (offHanded n given kept pool e) := fun {given kept pool} hm hw hab => by
    refine hP _ (leftPort (.transmitter n) (leftPort (.receiver n) (leftPort (.transmitter n) u.port))) ⟨hq.1, ?_, hq.2.2⟩
      rfl (by simp) rfl rfl ?_
    · rcases hw with hw | hw
      · rcases hq.2.1 with hq | hq
        · exact .inl hq
        · right
          show e.walker.queue ++ given.map (abandonWalk n) = []
          rw [hw, hq]
          rfl
      · exact .inl hw
    · rw [goOff_message (rep := u.report) (by rw [hrx]; exact hm) hab, he]
      exact updLine_goneOff (u := u) (given := given) (kept := kept) (pool := pool) (p := p0) (rep := rep) hg
  constructor
  case hunting =>
    intro h
    refine hP e (leftPort (.transmitter n) (leftPort (.transmitter n) u.port)) hq rfl (by simp) rfl rfl ?_
    rw [goOff_hunting (by rw [hrx]; exact hasMessage_hunting h), he]
    exact congrArg (fun x : State => { x with port := leftPort (.transmitter n) (leftPort (.transmitter n) u.port) })
      (updLine_updLine g offLine u)
  case waits =>
    intro f hst hf hb hu hc ha
    simp only [Fin.getElem_fin] at *
    have hlinked : hasUnlinked s.lines[n.val].rx = false :=
      hasUnlinked_eq_false (hu.elim (fun hn q hq => by rw [hn] at hq; exact absurd hq.symm (Option.some_ne_none q)) (fun h => h.2))
    have hsplit : splitGiven (s.lines[n.val].rx.abandon ++
        [⟨f, s.lines[n.val].rx.asm.blockCount, placedCount (.receiver n) s⟩]) = ([], s.lines[n.val].rx.abandon ++
        [⟨f, s.lines[n.val].rx.asm.blockCount, placedCount (.receiver n) s⟩]) :=
      splitGiven_waits (fun a hx => (List.mem_append.1 hx).elim (ha a) (fun hx => by rw [List.mem_singleton.1 hx]; exact hc))
    have hchain := abandonChain_linked (s := stoppingAt n u) (given := []) (kept := s.lines[n.val].rx.abandon ++
        [⟨f, s.lines[n.val].rx.asm.blockCount, placedCount (.receiver n) s⟩]) (by rw [hline]; exact hlinked)
      (by rw [hline]; exact hb) (by
        rw [houtstanding, chainOutstanding_placed (hu.imp id (fun h => h.1)), hline, hf]
        exact hsplit)
    have hx := hhanded (hasMessage_iff.2 hst) (.inl rfl) hchain
    rw [offHanded_waits (by rw [he]; rfl)] at hx
    exact hx
  case given =>
    intro f hst hf hb hu hc ha hw
    simp only [Fin.getElem_fin] at *
    have hchain := abandonChain_linked (s := stoppingAt n u) (given := [⟨f, s.lines[n.val].rx.asm.blockCount, 0⟩]) (kept := [])
      (by rw [hline]; exact hasUnlinked_eq_false hu) (by rw [hline]; exact hb) (by
        have hzero : chainOutstanding n s = 0 := by
          unfold chainOutstanding
          rw [hc, ite_self]
        rw [houtstanding, hzero, hline, hf, ha]
        rfl)
    have hx := hhanded (hasMessage_iff.2 hst) (.inr (by rw [he]; exact hwalker ▸ hw)) hchain
    subst he
    exact hx
  case unlinked =>
    intro f b count q hst hf hb hc hcur hlen hq hp hcount ha hs hfree
    simp only [Fin.getElem_fin] at *
    have hsplit : splitGiven (s.lines[n.val].rx.abandon ++ [⟨f, count, placedCount (.receiver n) s⟩]) =
        ([], s.lines[n.val].rx.abandon ++ [⟨f, count, placedCount (.receiver n) s⟩]) :=
      splitGiven_waits (fun a hx => (List.mem_append.1 hx).elim (ha a) (fun hx => by rw [List.mem_singleton.1 hx]; exact hcount))
    have hchain := abandonChain_unlinked (s := stoppingAt n u) (given := []) (kept := s.lines[n.val].rx.abandon ++
        [⟨f, count, placedCount (.receiver n) s⟩]) (b := b) (count := count) (by rw [hline]; simp [hasUnlinked, hq, hp])
      (by rw [hline]; exact hb) hc (by rw [hline]; exact hcur) (by rw [hstop]; exact hs) (by rw [hstop]; exact hfree) (by
        rw [houtstanding, chainOutstanding_placed (.inr hlen), hline, hf]
        exact hsplit)
    have hx := hhanded (hasMessage_iff.2 (hst.imp id .inl)) (.inl rfl) hchain
    rw [offHanded_kept, hstop] at hx
    exact hx

end

/-- A message without a block, as its line goes OFF. -/
theorem goOff_blockless {g : LineUnit → LineUnit} {p0 : StorePort} (hg : LeavesChain g)
    (hst : u.lines[n.val].rx.state = .header ∨ u.lines[n.val].rx.state = .text)
    (hb : u.lines[n.val].rx.asm.blockCount = 0) (hu : u.lines[n.val].rx.unplaced = none) :
    updLine n g (goOff n u) = offerReport (plainReport .messageAbandoned n.val 65535 0 u.office.clock)
      { handedOver n u.lines[n.val].rx.abandon (offAt n g p0 u.report u) with
        port := leftPort (.transmitter n) (leftPort (.receiver n) (leftPort (.transmitter n) u.port)) } := by
  have hline : (stoppingAt n u).lines[n.val].rx = u.lines[n.val].rx := by rw [stoppingAt_line]
  have hchain := abandonChain_blockless (s := stoppingAt n u)
    (by rw [hline]; exact hasUnlinked_eq_false (fun q hq => by rw [hu] at hq; exact absurd hq.symm (Option.some_ne_none q)))
    (by rw [hline]; exact hb)
  rw [hline] at hchain
  rw [goOff_message (rep := (offerReport (plainReport .messageAbandoned n.val 65535 0 u.office.clock) u).report)
    (hasMessage_iff.2 (hst.imp id .inl)) hchain]
  have hgone := updLine_goneOff (n := n) (u := u) (given := []) (kept := u.lines[n.val].rx.abandon) (pool := unstarved n u.pool)
    (p := p0) (rep := u.report) hg
  rw [offHanded_waits (e := offAt n g p0 u.report u) (pool := unstarved n u.pool) rfl] at hgone
  exact congrArg (offerReport (plainReport .messageAbandoned n.val 65535 0 u.office.clock)) hgone

/-- No settings wait as a line goes OFF if none waited. -/
theorem goOff_settled (h : s.lines[n.val].settingsPending = false) : (goOff n s).lines[n.val].settingsPending = false := by
  have hkept := keptCalm_settled n
  have hstop : (stoppingAt n s).lines[n.val].settingsPending = false := by
    rw [stoppingAt_line]
    exact h
  rw [goOff_eq]
  unfold transmitterOff receiverOff
  rw [leaveWaiting_port]
  dsimp only
  rw [updLine_line]
  dsimp only
  rw [updLine_line]
  dsimp only
  split
  · exact hkept.abandonChain hstop n
  · exact hstop

/-- The access that is with the Store Port stays with it through an event. -/
theorem keptInside_forwards (a : Access) : KeptInside (fun _ => True) (Forwards a) where
  port h _ hp := (hp a).2 h
  report h _ := h
  walker h _ := h
  pool h _ := h
  du h _ := h
  count h _ := h
  serial h _ := h
  rx h _ _ := h
  transfer h _ := h
  transmitter h _ _ _ _ := h
  awake _ _ _ := trivial
  line h _ _ _ := h
  post h := h

/-! ## A line control word that takes the line OFF (R125 to R127) -/

theorem SamePart.of_report {t : State} {r : ReportUnit} (h : SamePart { e with report := r } t) : SamePart e t := by
  have hsame : { t with port := e.port, report := e.report } = e := congrArg (fun x : State => { x with report := e.report }) h.eq
  exact hsame

theorem giveBackHand_none {reason : Nat} (h : s.lines[n.val].tx.hand = none) : giveBackHand n reason s = s := by
  simp [giveBackHand, h]

theorem giveBackHand_some {reason : Nat} {h : Hand} (hh : s.lines[n.val].tx.hand = some h) :
    giveBackHand n reason s = interruptEntry h.number reason s.lines[n.val].tx.textBegun s := by
  simp [giveBackHand, hh]

/-- A change of the transmitter that a line that goes OFF forgets. -/
def Forgotten (k : Transmitter → Transmitter) : Prop := ∀ x, (k x).stale + (k x).live = x.stale + x.live

section
variable {g : LineUnit → LineUnit} {k : Transmitter → Transmitter} {off : LineUnit} {d : DeliveryUnit} {q p0 : StorePort}
  {r r0 : ReportUnit} {P : State → Prop} {t : State}

theorem portRequests_congr (hqueue : q.queue = p0.queue) (hcycle : q.cycle = p0.cycle) : portRequests q = portRequests p0 := by
  unfold portRequests
  rw [hqueue, hcycle]

theorem offAt_updTx (hk : Forgotten k) (hoff : off = g (offLine s.lines[n.val])) :
    offAt n g p0 r0 { updTx n k s with du := d, port := q, report := r } =
      { s with du := d, lines := s.lines.set n off, port := p0, report := r0 } := by
  have hline : updLine n (fun l => g (offLine l)) (updTx n k s) = updLine n (fun _ => off) s := by
    unfold updTx
    rw [updLine_updLine]
    refine updLine_congr ?_
    rw [hoff]
    simp [offLine, hk _]
  exact congrArg (fun x : State => { x with du := d, port := p0, report := r0 }) hline

/-- Such an event whose delivery in hand has been given back. -/
theorem receiverGoesOff_event (hg : LeavesChain g) (hquiet : Quiet s) (hk : Forgotten k)
    (hoff : off = g (offLine s.lines[n.val])) (hqueue : q.queue = s.port.queue) (hcycle : q.cycle = s.port.cycle)
    (hu : u = { updTx n k s with du := d, port := q, report := r })
    (hP : ∀ x p, Quiet x → x.report = s.report → portRequests p = requests s →
      updLine n g (goOff n u) = { x with port := p, report := r } → P x) :
    ReceiverGoesOff n s { s with du := d, lines := s.lines.set n off } P := by
  have hrequests : portRequests q = requests s := portRequests_congr hqueue hcycle
  subst hu
  refine receiverGoesOff_of (u := { updTx n k s with du := d, port := q, report := r }) (p0 := s.port) (rep := s.report) hg
    (offAt_updTx hk hoff).symm ?_ rfl rfl ?_ hquiet (fun x p hx hrep hreq _ _ hbody => hP x p hx hrep (hreq.trans hrequests) hbody)
  · show (updTx n k s).lines[n.val].rx = _
    rw [updTx_line]
  · show placedCount _ { s with port := q } = _
    unfold placedCount
    dsimp only
    rw [hqueue, hcycle]

/-- What a line control word that takes line `n` OFF makes of the machine, by what the line has in hand. -/
theorem lineOff_cases {reason : Nat} {a : Access} (hg : LeavesChain g) (hquiet : Quiet s)
    (hhand : ∀ x, (k x).hand = x.hand ∧ (k x).textBegun = x.textBegun) (hk : Forgotten k)
    (hoff : off = g (offLine s.lines[n.val]))
    (ht : settle (updLine n g (goOff n (giveBackHand n reason (updTx n k (forward a s))))) = t) :
    (s.lines[n].tx.hand = none →
      ReceiverGoesOff n s { s with lines := s.lines.set n off } (fun e => SamePart e t ∧ requests t = requests s) ∧
      (s.lines[n].rx.state = .header ∨ s.lines[n].rx.state = .text → s.lines[n].rx.asm.blockCount = 0 →
        s.lines[n].rx.unplaced = none →
        Offers (plainReport .messageAbandoned n.val 65535 0 s.office.clock)
          (handedOver n s.lines[n].rx.abandon { s with lines := s.lines.set n off }) t)) ∧
    (∀ h, s.lines[n].tx.hand = some h → s.du.entries[h.number].line = n → s.du.active[n] = some h.number →
      (s.du.entries[h.number].cancelPending = false → s.du.rewrites = [] →
        ReceiverGoesOff n s
          { s with
            du := interruptedDelivery s n h.number s.lines[n].tx.textBegun
            lines := s.lines.set n off }
          (fun e => Offers (plainReport .deliveryInterrupted n.val (BitVec.ofNat 16 h.number.val) (BitVec.ofNat 16 reason)
            s.office.clock) e t)) ∧
      (∀ count, s.du.entries[h.number].cancelPending = true → s.port.waiting ≠ [] →
        s.du.transit[s.du.entries[h.number].transit].outstanding = count + 1 →
        ReceiverGoesOff n s
          { s with
            du := freedDelivery s n h.number count [plainReport .deliveryCancelled n.val
              (BitVec.ofNat 16 h.number.val) (BitVec.ofNat 16 s.du.entries[h.number].transit.val) s.office.clock]
            lines := s.lines.set n off }
          (fun e => SamePart e t))) := by
  subst ht
  obtain ⟨v, hv⟩ : ∃ v, v = updTx n k (forward a s) := ⟨_, rfl⟩
  have hline : v.lines[n.val] = { s.lines[n.val] with tx := k s.lines[n.val].tx } := by
    rw [hv]
    exact updTx_line k (forward a s)
  rw [← hv]
  obtain ⟨w, hw0⟩ : ∃ w, w = giveBackHand n reason v := ⟨_, rfl⟩
  rw [← hw0]
  refine ⟨fun hnone => ?_, fun h hh hl ha => ⟨fun hc hr => ?_, fun count hc hw hcount => ?_⟩⟩
  · have hback : w = v := hw0.trans (giveBackHand_none (by rw [hline]; exact (hhand _).1.trans hnone))
    rw [hback]
    refine ⟨receiverGoesOff_event (u := v) (k := k) (d := s.du) (q := { s.port with fwd := some a }) (r := s.report) hg hquiet hk
      hoff rfl rfl hv (fun x p hx hrep hreq hbody => ?_), fun hst hb hu => ?_⟩
    · rw [hbody]
      have hsame : { x with port := p, report := s.report } = { x with port := p } := by rw [← hrep]
      rw [hsame]
      exact ⟨settle_port hx, (requests_settle hx).trans hreq⟩
    · have hbody := goOff_blockless (n := n) (u := v) (g := g) (p0 := s.port) hg (by rw [hline]; exact hst) (by rw [hline]; exact hb)
        (by rw [hline]; exact hu)
      have hoffAt : offAt n g s.port v.report v = { s with lines := s.lines.set n off } := by
        rw [hv]
        exact offAt_updTx (d := s.du) (q := { s.port with fwd := some a }) (r := s.report) (p0 := s.port) (r0 := s.report) hk hoff
      have habandon : v.lines[n.val].rx.abandon = s.lines[n.val].rx.abandon := by rw [hline]
      rw [hbody, hoffAt, habandon, hv]
      exact offers_settle _ (by exact hquiet)
  · have hback : w = offerReport
        (plainReport .deliveryInterrupted n.val (BitVec.ofNat 16 h.number.val) (BitVec.ofNat 16 reason) s.office.clock)
        { v with du := interruptedDelivery s n h.number s.lines[n].tx.textBegun } := by
      rw [hw0, giveBackHand_some (h := h) (by rw [hline]; exact (hhand _).1.trans hh), hline, (hhand _).2, hv]
      exact interruptEntry_plain (s := updTx n k (forward a s)) hc hl ha hr
    refine receiverGoesOff_event (u := w) (k := k) (d := interruptedDelivery s n h.number s.lines[n].tx.textBegun)
      (q := { s.port with fwd := some a }) (r := (offerReport (plainReport .deliveryInterrupted n.val
        (BitVec.ofNat 16 h.number.val) (BitVec.ofNat 16 reason) s.office.clock) s).report) hg hquiet hk hoff rfl rfl
      (by rw [hback, hv]; rfl) (fun x p hx hrep hreq hbody => ?_)
    rw [hbody]
    have hsame : { x with port := p, report := (offerReport (plainReport .deliveryInterrupted n.val
        (BitVec.ofNat 16 h.number.val) (BitVec.ofNat 16 reason) s.office.clock) s).report } =
        offerReport (plainReport .deliveryInterrupted n.val (BitVec.ofNat 16 h.number.val) (BitVec.ofNat 16 reason)
          s.office.clock) { x with port := p } :=
      congrArg (fun y : ReportUnit => ({ x with port := p, report := { y with offers := y.offers ++
        [⟨plainReport .deliveryInterrupted n.val (BitVec.ofNat 16 h.number.val) (BitVec.ofNat 16 reason) s.office.clock,
          false, none⟩] } } : State)) hrep.symm
    rw [hsame]
    exact offers_settle _ hx
  · have hback : w = { v with
        du := freedDelivery s n h.number count [plainReport .deliveryCancelled n.val
          (BitVec.ofNat 16 h.number.val) (BitVec.ofNat 16 s.du.entries[h.number].transit.val) s.office.clock]
        port := waitingPort .delivery { s.port with fwd := some a } } := by
      rw [hw0, giveBackHand_some (h := h) (by rw [hline]; exact (hhand _).1.trans hh), hv]
      unfold interruptEntry cancelEntry
      rw [if_pos (by exact hc), deliveryRecord_eq (s := updTx n k (forward a s)) hl]
      exact freeEntry_waits (s := updTx n k (forward a s)) hl ha (by
        show s.du.transit[s.du.entries[h.number].transit].outstanding - 1 = count
        rw [hcount]
        rfl) hw
    refine receiverGoesOff_event (u := w) (k := k) (d := freedDelivery s n h.number count [plainReport .deliveryCancelled n.val
          (BitVec.ofNat 16 h.number.val) (BitVec.ofNat 16 s.du.entries[h.number].transit.val) s.office.clock])
      (q := waitingPort .delivery { s.port with fwd := some a }) (r := s.report) hg hquiet hk hoff
      (by unfold waitingPort; split <;> rfl) (by unfold waitingPort; split <;> rfl) (by rw [hback, hv]; rfl)
      (fun x p hx hrep hreq hbody => ?_)
    rw [hbody]
    have hsame : { x with port := p, report := s.report } = { x with port := p } := by rw [← hrep]
    rw [hsame]
    exact settle_port hx

end

/-- Whatever a line that goes OFF brings about, the access stays with the Store Port. -/
theorem forwards_lineOff {a : Access} {g : LineUnit → LineUnit} {reason : Nat} (h : Forwards a s) :
    Forwards a (updLine n g (goOff n (giveBackHand n reason s))) :=
  have hkept := (keptInside_forwards a).toKeptBelow
  hkept.line (hkept.goOff trivial (hkept.giveBackHand h _ _)) trivial _

theorem giveBackHand_settled {reason : Nat} (h : s.lines[n.val].settingsPending = false) :
    (giveBackHand n reason s).lines[n.val].settingsPending = false := by
  unfold giveBackHand
  split
  · exact (keptCalm_settled n).interruptEntry h _ _ _
  · exact h

/-- A snooped word, with the event that its owner makes of it. -/
theorem exec_pageCommand_settles {c : Instr} {off : Nat} {v : Word} (hc : pageCommand c = some (off, v, .both))
    (h : Accessible s) (hs : snoop off v (forward (pageWrite s off v .both) s) = e)
    (hf : Forwards (pageWrite s off v .both) e) :
    exec c s = .next (settle e) ∧ Forwards (pageWrite s off v .both) (settle e) := by
  refine ⟨?_, (keptInside_forwards _).settle hf⟩
  rw [exec_pageCommand hc, writeEvent_page (pageCommand_range hc).1 v .both h, if_pos rfl, hs]

end Sys2Proof.Machine

/-! PROOFS. The statements about DISABLE and LINE RESET. -/

namespace Sys2Proof.LineWords
open Sys2Proof.Machine

/-- Settles O44: DISABLE by what the line is sending, and what its message and its delivery become. -/
theorem disable : Obligations.Disable := by
  intro s n h hrun
  have hsnoop : ∀ e : State, disableLine n (forward (pageWrite s (128 + n.val) 2 .both) s) = e →
      snoop (128 + n.val) 2 (forward (pageWrite s (128 + n.val) 2 .both) s) = e := fun e he => by
    rw [snoop_lineControl (s := forward _ s) hrun, lineControl_disable, he]
  have hcommand : pageCommand (.disable n .both) = some (128 + n.val, 2, .both) := rfl
  have htakes : s.lines[n].tx.state ≠ .off → s.lines[n].tx.stopping = false →
      (s.lines[n].tx.sending = none ∨ ∃ i, s.lines[n].tx.sending = some ⟨.preamble, i⟩) →
      disableLine n (forward (pageWrite s (128 + n.val) 2 .both) s) =
        disableTakesEffect n (forward (pageWrite s (128 + n.val) 2 .both) s) := fun hon hstop hfree => by
    have hframe : frameOrBreakIn s.lines[n.val].tx = false := by
      unfold frameOrBreakIn
      rcases hfree with hs | ⟨i, hs⟩ <;> simp only [Fin.getElem_fin] at hs <;> rw [hs]
    have hno : ¬ (s.lines[n.val].tx.state = .off ∨ s.lines[n.val].tx.stopping = true) := fun hx =>
      hx.elim hon (fun hx => Bool.false_ne_true (hstop.symm.trans hx))
    refine (if_neg hno).trans (if_neg ?_)
    rw [show frameOrBreakIn (forward (pageWrite s (128 + n.val) 2 .both) s).lines[n].tx = false from hframe]
    exact Bool.false_ne_true
  refine ⟨fun hoff => ?_, fun hon hstop hsend => ?_, fun hon hstop hp hfree hhand hrx => ?_, fun hon hstop hp hfree => ?_⟩
  · exact exec_pageCommand_ends hcommand h (hsnoop _ (if_pos hoff)) h.1
  · refine exec_pageCommand_ends hcommand h (hsnoop _ ?_) h.1
    have hframe : frameOrBreakIn s.lines[n.val].tx = true := by
      obtain ⟨k, i, hs, hk⟩ := hsend
      unfold frameOrBreakIn
      rw [← Fin.getElem_fin, hs]
      cases k with
      | preamble => exact absurd rfl hk
      | frame => rfl
      | breakIn => rfl
    have hno : ¬ (s.lines[n.val].tx.state = .off ∨ s.lines[n.val].tx.stopping = true) := fun hx =>
      hx.elim hon (fun hx => Bool.false_ne_true (hstop.symm.trans hx))
    exact (if_neg hno).trans (if_pos hframe)
  · have hbody := disableTakesEffect_plain (s := forward (pageWrite s (128 + n.val) 2 .both) s) hhand (hasMessage_hunting hrx) hp
    obtain ⟨t, ht, hf, hpart, -, hwait⟩ := exec_pageCommand_part (s := s) (e := updLine n offLine s)
      (p := leftPort (.transmitter n) (leftPort (.transmitter n) { s.port with fwd := some (pageWrite s (128 + n.val) 2 .both) }))
      hcommand h (hsnoop _ ((htakes hon hstop hfree).trans hbody)) rfl h.1
    exact ⟨t, ht, hf, by rw [hwait]; exact not_mem_leftPort _ _, hpart⟩
  · have hset : (forward (pageWrite s (128 + n.val) 2 .both) s).lines[n.val].settingsPending = false := hp
    have hbody : disableTakesEffect n (forward (pageWrite s (128 + n.val) 2 .both) s) = updLine n id (goOff n (giveBackHand n 1
        (updTx n id (forward (pageWrite s (128 + n.val) 2 .both) s)))) := by
      rw [updLine_self (f := id) rfl, show updTx n id (forward (pageWrite s (128 + n.val) 2 .both) s) = _ from updLine_self rfl]
      exact checkIdlePoint_settled (goOff_settled (giveBackHand_settled hset))
    obtain ⟨hexec, hf⟩ := exec_pageCommand_settles hcommand h (hsnoop _ ((htakes hon hstop hfree).trans hbody))
      (forwards_lineOff (.inl rfl))
    exact ⟨_, hexec, hf, lineOff_cases (fun _ _ => rfl) h.1 (fun _ => ⟨rfl, rfl⟩) (fun _ => rfl) rfl rfl⟩

/-- Settles O45: LINE RESET clears the counts, and takes a line that is not OFF to OFF at once. -/
theorem lineReset : Obligations.LineReset := by
  rintro s n l h hrun hp rfl
  have hsnoop : ∀ e : State, resetLine n (forward (pageWrite s (128 + n.val) 3 .both) s) = e →
      snoop (128 + n.val) 3 (forward (pageWrite s (128 + n.val) 3 .both) s) = e := fun e he => by
    rw [snoop_lineControl (s := forward _ s) hrun, lineControl_reset, he]
  have hcommand : pageCommand (.lineReset n .both) = some (128 + n.val, 3, .both) := rfl
  obtain ⟨v, hv⟩ : ∃ v, v = forward (pageWrite s (128 + n.val) 3 .both) s := ⟨_, rfl⟩
  have hset : (updTx n silentTx v).lines[n.val].settingsPending = false := by
    rw [updTx_line, hv]
    exact hp
  have hgone : s.lines[n].tx.state ≠ .off →
      resetLine n v = updLine n clearLineCounts (goOff n (giveBackHand n 2 (updTx n silentTx v))) := fun hon => by
    have henabled : enabled v.lines[n] = true := by
      rw [hv]
      exact enabled_iff.2 hon
    unfold resetLine
    rw [if_pos henabled, abandonSending_eq]
    refine checkIdlePoint_settled ?_
    rw [updLine_line, show ∀ l, (clearLineCounts l).settingsPending = l.settingsPending from fun _ => rfl]
    exact goOff_settled (giveBackHand_settled hset)
  have hafter : Forwards (pageWrite s (128 + n.val) 3 .both)
      (updLine n clearLineCounts (goOff n (giveBackHand n 2 (updTx n silentTx v)))) := forwards_lineOff (by
    rw [hv]
    exact .inl rfl)
  rw [hv] at hgone hafter
  have hoff := fun hon : s.lines[n].tx.state ≠ .off => exec_pageCommand_settles hcommand h (hsnoop _ (hgone hon)) hafter
  refine ⟨fun hs => ?_, fun hon hhand hrx => ?_, fun off hon heq => ?_⟩
  · refine exec_pageCommand_ends hcommand h (hsnoop _ ?_) h.1
    have hno : ¬ enabled (forward (pageWrite s (128 + n.val) 3 .both) s).lines[n] = true := fun hx => enabled_iff.1 hx hs
    unfold resetLine
    rw [if_neg hno]
    refine checkIdlePoint_settled ?_
    rw [updLine_line]
    exact hp
  · obtain ⟨hexec, hf⟩ := hoff hon
    have hcases := lineOff_cases (n := n) (k := silentTx) (reason := 2) (a := pageWrite s (128 + n.val) 3 .both)
      (g := clearLineCounts) (fun _ _ => rfl) h.1 (fun _ => ⟨rfl, rfl⟩) (fun _ => rfl) rfl rfl
    exact ⟨_, hexec, hf, ((hcases.1 hhand).1.hunting hrx).1⟩
  · obtain ⟨hexec, hf⟩ := hoff hon
    exact ⟨_, hexec, hf, lineOff_cases (g := clearLineCounts) (k := silentTx) (fun _ _ => rfl) h.1 (fun _ => ⟨rfl, rfl⟩)
      (fun _ => rfl) heq rfl⟩

end Sys2Proof.LineWords

/-! SUPPORT. A break: its receiver's part and its transmitter's part. -/

namespace Sys2Proof.Machine

variable {s e u : State} {n : LineNo} {kept : List Abandonment} {pool : PoolUnit} {k : Transmitter → Transmitter}

/-! ## The receiver's part (R79) -/

/-- The receiver in HUNTING after its chain is handed over. -/
def brokenRx (kept : List Abandonment) (r : Receiver) : Receiver := clearReceiver .hunting (keptRx kept r)

/-- The machine whose receiver of line `n` has abandoned its message at a break. -/
def brokenAt (n : LineNo) (kept : List Abandonment) (pool : PoolUnit) (rep : ReportUnit) (s : State) : State :=
  { updRx n (brokenRx kept) s with pool := pool, port := leftPort (.receiver n) s.port, report := rep }

theorem breakReceiver_skips (h : s.lines[n.val].rx.state = .hunting ∨ s.lines[n.val].rx.state = .closing ∨
    s.lines[n.val].rx.idleClose = true) : breakReceiver n s = s := by
  refine if_neg ?_
  simp only [Fin.getElem_fin]
  rcases h with h | h | h <;> simp [h]

theorem breakReceiver_abandons {rep : ReportUnit} (hst : s.lines[n.val].rx.state = .header ∨ s.lines[n.val].rx.state = .text)
    (hi : s.lines[n.val].rx.idleClose = false)
    (hab : abandonChain n s = { abandonedAt n [] kept pool s with report := rep }) :
    breakReceiver n s = checkIdlePoint n (brokenAt n kept pool rep s) := by
  have hbody : breakReceiver n s = checkIdlePoint n (updRx n (clearReceiver .hunting) (abandonChain n s)) :=
    if_pos ⟨hst, by simpa using hi⟩
  have hwalker : { s.walker with queue := s.walker.queue ++ [] } = s.walker := by rw [List.append_nil]
  rw [hbody, hab]
  have hrx := updRx_updRx (n := n) (clearReceiver .hunting) (keptRx kept) s
  have hstate : { updRx n (clearReceiver .hunting) (updRx n (keptRx kept) s) with
      pool := pool, port := leftPort (.receiver n) s.port, report := rep,
      walker := { s.walker with queue := s.walker.queue ++ [] } } = brokenAt n kept pool rep s := by
    rw [hwalker, hrx]
    rfl
  exact congrArg (checkIdlePoint n) hstate

/-! ## The transmitter's part (R138, R139) -/

/-- The transmitter with its distant break indication. -/
def distantTx (t : Transmitter) : Transmitter := { t with distantBreak := true }

/-- What a break makes of a transmitter that need not act at once. -/
def BrokenTx (l : LineUnit) (k : Transmitter → Transmitter) : Prop :=
  (l.active.type = .party ∧ k = id) ∨
  (l.active.type = .pointToPoint ∧ l.tx.state = .idle ∧ k = pausedTx) ∨
  (l.active.type = .pointToPoint ∧ l.tx.state = .sending ∧ l.tx.sending ≠ none ∧ k = distantTx) ∨
  (l.active.type = .pointToPoint ∧ l.tx.state ≠ .idle ∧ l.tx.state ≠ .sending ∧ k = id)

theorem updTx_id (n : LineNo) (s : State) : updTx n id s = s := updLine_self rfl

theorem breakTransmitter_updates (h : BrokenTx s.lines[n.val] k) : breakTransmitter n s = updTx n k s := by
  unfold breakTransmitter
  simp only [Fin.getElem_fin]
  rcases h with ⟨ht, rfl⟩ | ⟨ht, hs, rfl⟩ | ⟨ht, hs, hne, rfl⟩ | ⟨ht, hi, hs, rfl⟩
  · rw [if_pos (by simp [isParty, ht]), updTx_id]
  · rw [if_neg (by simp [isParty, ht]), if_pos hs]
    rfl
  · have hpause : inPause s.lines[n.val].tx = false := by
      obtain ⟨g, hg⟩ := Option.ne_none_iff_exists'.1 hne
      simp [inPause, hg]
    rw [if_neg (by simp [isParty, ht]), if_neg (by rw [hs]; exact TxState.noConfusion), if_pos hs, if_neg (by simp [hpause])]
    rfl
  · rw [if_neg (by simp [isParty, ht]), if_neg hi, if_neg hs, updTx_id]

/-! ## The event (R52, R79, R138, R139) -/

theorem brokenRx_eq {r : Receiver} (hi : r.idleClose = false) (hu : r.unplaced = none) :
    brokenRx kept r = { r with
      state := .hunting, fifo := [], pendingGap := false, window := [], asm := Assembly.reset, closePoint := 0,
      idleTimer := none, closeNext := 0, abandon := kept } := by
  cases r
  subst hi hu
  rfl

/-- The line as its break begins. -/
theorem beginBreak_line (s : State) : (updLine n beginBreak s).lines[n.val] = beginBreak s.lines[n.val] := updLine_line _ _

theorem brokenTx_beginBreak {l : LineUnit} (h : BrokenTx l k) : BrokenTx (beginBreak l) k := h

theorem detectBreak_receives {kept : List Abandonment} {pool : PoolUnit} {rep : ReportUnit}
    (hk : BrokenTx s.lines[n.val] k) (hp : s.lines[n.val].settingsPending = false)
    (hrx : breakReceiver n (updLine n beginBreak s) = brokenAt n kept pool rep (updLine n beginBreak s)) :
    detectBreak n s = { updLine n (fun l => { beginBreak l with tx := k l.tx, rx := brokenRx kept (beginBreak l).rx }) s with
      pool := pool, port := leftPort (.receiver n) s.port, report := rep } := by
  have hline : (brokenAt n kept pool rep (updLine n beginBreak s)).lines[n.val] =
      { beginBreak s.lines[n.val] with rx := brokenRx kept (beginBreak s.lines[n.val]).rx } := by
    show (updRx n (brokenRx kept) (updLine n beginBreak s)).lines[n.val] = _
    rw [updRx_line, beginBreak_line]
  have htx : breakTransmitter n (brokenAt n kept pool rep (updLine n beginBreak s)) =
      updTx n k (brokenAt n kept pool rep (updLine n beginBreak s)) := breakTransmitter_updates (by rw [hline]; exact hk)
  unfold detectBreak
  rw [hrx, htx, checkIdlePoint_settled (by rw [updTx_line, hline]; exact hp)]
  have hall : updTx n k (updRx n (brokenRx kept) (updLine n beginBreak s)) =
      updLine n (fun l => { beginBreak l with tx := k l.tx, rx := brokenRx kept (beginBreak l).rx }) s := by
    unfold updTx updRx
    rw [updLine_updLine, updLine_updLine]
    rfl
  exact congrArg (fun x : State => { x with pool := pool, port := leftPort (.receiver n) s.port, report := rep }) hall

theorem detectBreak_skips (hk : BrokenTx s.lines[n.val] k) (hp : s.lines[n.val].settingsPending = false)
    (hrx : s.lines[n.val].rx.state = .hunting ∨ s.lines[n.val].rx.state = .closing ∨ s.lines[n.val].rx.idleClose = true) :
    detectBreak n s = updLine n (fun l => { beginBreak l with tx := k l.tx }) s := by
  unfold detectBreak
  rw [breakReceiver_skips (by rw [beginBreak_line]; exact hrx),
    breakTransmitter_updates (k := k) (by rw [beginBreak_line]; exact hk),
    checkIdlePoint_settled (by rw [updTx_line, beginBreak_line]; exact hp)]
  exact updLine_updLine _ _ s

/-- A message in HEADER or TEXT at a break that no idle close awaits, with no request unplaced. -/
structure Abandons (l : LineUnit) : Prop where
  state : l.rx.state = .header ∨ l.rx.state = .text
  idleClose : l.rx.idleClose = false
  unplaced : l.rx.unplaced = none

theorem Abandons.linked (h : Abandons s.lines[n.val]) : hasUnlinked s.lines[n.val].rx = false :=
  hasUnlinked_eq_false (fun q hq => by rw [h.unplaced] at hq; exact absurd hq.symm (Option.some_ne_none q))

/-- A message without a block is reported as the break begins. -/
theorem breakReceiver_blockless (h : Abandons s.lines[n.val]) (hb : s.lines[n.val].rx.asm.blockCount = 0) :
    breakReceiver n s = checkIdlePoint n (brokenAt n s.lines[n.val].rx.abandon (unstarved n s.pool)
      (offerReport (plainReport .messageAbandoned n.val 65535 0 s.office.clock) s).report s) :=
  breakReceiver_abandons h.state h.idleClose (abandonChain_blockless h.linked hb)

theorem breakReceiver_linked {f : Nat} (h : Abandons s.lines[n.val]) (hb : 0 < s.lines[n.val].rx.asm.blockCount)
    (hf : s.lines[n.val].rx.asm.first = some f) (hc : 0 < placedCount (.receiver n) s)
    (ha : s.lines[n.val].rx.abandon = []) :
    breakReceiver n s = checkIdlePoint n (brokenAt n
      [⟨f, s.lines[n.val].rx.asm.blockCount, placedCount (.receiver n) s⟩] (unstarved n s.pool) s.report s) := by
  refine breakReceiver_abandons h.state h.idleClose (abandonChain_linked h.linked hb ?_)
  rw [ha, hf, chainOutstanding_placed (.inl h.unplaced)]
  exact splitGiven_waits (fun a hx => by rw [List.mem_singleton.1 hx]; exact hc)

theorem brokenAt_settled {rep : ReportUnit} (h : s.lines[n.val].settingsPending = false) :
    checkIdlePoint n (brokenAt n kept pool rep s) = brokenAt n kept pool rep s := by
  refine checkIdlePoint_settled ?_
  show (updRx n (brokenRx kept) s).lines[n.val].settingsPending = false
  rw [updRx_line]
  exact h

/-! ## A failed try (R110, R138) -/

/-- The transmitter with no request pending. -/
def failedTx (t : Transmitter) : Transmitter := { t with distantBreak := false, breakInPending := false }

theorem deferredRequest_fails {h : Hand} (hh : s.lines[n.val].tx.hand = some h) (hd : s.lines[n.val].tx.distantBreak = true)
    (ht : s.lines[n.val].active.type = .pointToPoint) : deferredRequest n s = some (failTryToHead n h s) := by
  unfold deferredRequest
  simp only [Fin.getElem_fin, hh]
  rw [if_pos (by simp [hd, isParty, ht])]

/-- Where break recovery lasts the line pauses after a failed try, whatever the try's end makes of the tables. -/
theorem failTryToHead_pauses {h : Hand} (he : failedTryEntry h.number s.lines[n.val].tx.textBegun s = e)
    (hp : pauses e.lines[n.val] = true) : failTryToHead n h s =
      { updTx n (fun t => pausedTx (failedTx (droppedTx t))) e with port := leftPort (.transmitter n) e.port } := by
  have hdrop : updTx n failedTx (dropHand n e) = { updTx n (fun t => failedTx (droppedTx t)) e with
      port := leftPort (.transmitter n) e.port } := updTx_dropHand failedTx e
  have hbody : failTryToHead n h s = enterIdle n (updTx n failedTx (dropHand n e)) := by
    unfold failTryToHead
    simp only [Fin.getElem_fin]
    rw [he]
    rfl
  have hline : (updTx n (fun t => failedTx (droppedTx t)) e).lines[n.val] =
      { e.lines[n.val] with tx := failedTx (droppedTx e.lines[n.val].tx) } := updTx_line _ _
  rw [hbody, hdrop, enterIdle_pauses]
  · exact congrArg (fun x : State => { x with port := leftPort (.transmitter n) e.port })
      (updTx_updTx pausedTx (fun t => failedTx (droppedTx t)) e)
  · show pauses (updTx n (fun t => failedTx (droppedTx t)) e).lines[n.val] = true
    rw [hline]
    exact hp

/-- A delivery in hand with nothing held for sending. -/
theorem droppedTx_empty {t : Transmitter} (ho : t.opening = []) (hh : t.holding = []) : droppedTx t =
    { t with
      hand := none, textBegun := false, lenKnown := false, callPos := none, answerCount := none, answerWindow := [],
      out := [], stale := t.stale + t.live, live := 0 } := by
  cases t
  dsimp only at ho hh
  subst ho hh
  rfl

/-- The break in an underrun pause: the try has failed at once. -/
theorem detectBreak_fails {h : Hand} (hrx : s.lines[n.val].rx.state = .hunting) (hp : s.lines[n.val].settingsPending = false)
    (ht : s.lines[n.val].active.type = .pointToPoint) (hs : s.lines[n.val].tx.state = .sending)
    (hpause : inPause s.lines[n.val].tx = true) (hstop : s.lines[n.val].tx.stopping = false)
    (hhand : s.lines[n.val].tx.hand = some h) (hc : s.du.entries[h.number].cancelPending = false)
    (hl : s.du.entries[h.number].line = n) (ha : s.du.active[n] = some h.number) (hr : s.du.rewrites = [])
    (hk : s.du.entries[h.number].attempts < 2) :
    detectBreak n s = offerReport (plainReport .deliveryInterrupted n.val (BitVec.ofNat 16 h.number.val) 3 s.office.clock)
      { updLine n (fun l => { beginBreak l with tx := pausedTx (failedTx (droppedTx l.tx)) }) s with
        du := returnedDelivery n h.number (triedAgain s.lines[n.val].tx.textBegun) s.du
        port := leftPort (.transmitter n) s.port } := by
  obtain ⟨v, hv⟩ : ∃ v, v = updTx n distantTx (updLine n beginBreak s) := ⟨_, rfl⟩
  have hline : v.lines[n.val] = { beginBreak s.lines[n.val] with tx := distantTx s.lines[n.val].tx } := by
    rw [hv, updTx_line, beginBreak_line]
    rfl
  have htx : breakTransmitter n (updLine n beginBreak s) = failTryToHead n h v := by
    have hexamine : breakTransmitter n (updLine n beginBreak s) = examineRequests n v := by
      unfold breakTransmitter
      simp only [Fin.getElem_fin, beginBreak_line]
      rw [if_neg (by simp [isParty, beginBreak, spaceSample, ht]), if_neg (by
        show ¬ s.lines[n.val].tx.state = .idle
        rw [hs]
        exact TxState.noConfusion), if_pos (by exact hs), if_pos (by exact hpause), hv]
      rfl
    rw [hexamine]
    unfold examineRequests
    rw [if_neg (by rw [Fin.getElem_fin, hline]; exact Bool.eq_false_iff.1 hstop),
      deferredRequest_fails (h := h) (by rw [hline]; exact hhand) (by rw [hline]; rfl) (by rw [hline]; exact ht)]
    rfl
  have hentry : failedTryEntry h.number v.lines[n.val].tx.textBegun v = offerReport
      (plainReport .deliveryInterrupted n.val (BitVec.ofNat 16 h.number.val) 3 s.office.clock)
      { v with du := returnedDelivery n h.number (triedAgain s.lines[n.val].tx.textBegun) s.du } := by
    rw [hline, hv]
    exact failedTryEntry_plain (s := updTx n distantTx (updLine n beginBreak s)) hc hl ha hr hk
  have hall : updTx n (fun t => pausedTx (failedTx (droppedTx t))) v =
      updLine n (fun l => { beginBreak l with tx := pausedTx (failedTx (droppedTx l.tx)) }) s := by
    rw [hv]
    unfold updTx
    rw [updLine_updLine, updLine_updLine]
    rfl
  have hpauses : pauses v.lines[n.val] = true := by
    rw [hline]
    exact pauses_iff.2 ⟨ht, rfl⟩
  have hfail := failTryToHead_pauses hentry (by exact hpauses)
  unfold detectBreak
  rw [breakReceiver_skips (by rw [beginBreak_line]; exact .inl hrx), htx, hfail, checkIdlePoint_settled]
  · rw [hv] at hall ⊢
    exact congrArg (fun x : State => offerReport
      (plainReport .deliveryInterrupted n.val (BitVec.ofNat 16 h.number.val) 3 s.office.clock)
      { x with
        du := returnedDelivery n h.number (triedAgain s.lines[n.val].tx.textBegun) s.du
        port := leftPort (.transmitter n) s.port }) hall
  · show (updTx n (fun t => pausedTx (failedTx (droppedTx t))) v).lines[n.val].settingsPending = false
    rw [hall, updLine_line]
    exact hp

/-! ## A transfer that turns an IDLE line point-to-point in break recovery (R129, R139) -/

theorem checkIdlePoint_pauses (hp : s.lines[n.val].settingsPending = true) (hi : idlePoint s.lines[n.val] = true)
    (hs : s.lines[n.val].tx.state = .idle) (ht : s.lines[n.val].shadow.type = .pointToPoint)
    (hr : s.lines[n.val].recovery = true) :
    checkIdlePoint n s = updLine n (fun l => { transferredLine l with tx := pausedTx (transferredLine l).tx }) s := by
  have hline : (updLine n transferredLine s).lines[n.val] = transferredLine s.lines[n.val] := updLine_line _ _
  have htx : (transferredLine s.lines[n.val]).tx.state = .idle := by
    unfold transferredLine
    rw [if_pos ht]
    exact hs
  unfold checkIdlePoint
  rw [if_pos (by rw [Fin.getElem_fin, hp, hi]; rfl)]
  simp only [transferSettings_eq, Fin.getElem_fin, hline]
  rw [if_pos htx]
  unfold arriveIdle
  rw [if_pos (by rw [Fin.getElem_fin, hline]; exact pauses_iff.2 ⟨ht, hr⟩)]
  exact updLine_updLine (fun l => { l with tx := pausedTx l.tx }) transferredLine s

/-- The line that a break turns point-to-point and pauses. -/
def turnedLine (kept : List Abandonment) (l : LineUnit) : LineUnit :=
  { beginBreak l with
    active := l.shadow, settingsPending := false, rx := brokenRx kept (beginBreak l).rx
    tx := { pausedTx l.tx with backingOff := false, backoffCount := none, backoffVoid := false } }

theorem detectBreak_turns (hs : s.lines[n.val].tx.state = .idle) (hp : s.lines[n.val].settingsPending = true)
    (hsh : s.lines[n.val].shadow.type = .pointToPoint) (hab : Abandons s.lines[n.val])
    (hb : s.lines[n.val].rx.asm.blockCount = 0) :
    detectBreak n s = offerReport (plainReport .messageAbandoned n.val 65535 0 s.office.clock)
      { updLine n (turnedLine s.lines[n.val].rx.abandon) s with
        pool := unstarved n s.pool, port := leftPort (.receiver n) s.port } := by
  obtain ⟨rep, hrep⟩ : ∃ rep, rep = (offerReport (plainReport .messageAbandoned n.val 65535 0 s.office.clock) s).report := ⟨_, rfl⟩
  obtain ⟨y, hy⟩ : ∃ y, y = brokenAt n s.lines[n.val].rx.abandon (unstarved n s.pool) rep (updLine n beginBreak s) := ⟨_, rfl⟩
  have hline : y.lines[n.val] = { beginBreak s.lines[n.val] with
      rx := brokenRx s.lines[n.val].rx.abandon (beginBreak s.lines[n.val]).rx } := by
    rw [hy]
    show (updRx n (brokenRx s.lines[n.val].rx.abandon) (updLine n beginBreak s)).lines[n.val] = _
    rw [updRx_line, beginBreak_line]
  have hrx : breakReceiver n (updLine n beginBreak s) = checkIdlePoint n y := by
    rw [breakReceiver_blockless (by rw [beginBreak_line]; exact ⟨hab.state, hab.idleClose, hab.unplaced⟩)
      (by rw [beginBreak_line]; exact hb), beginBreak_line, hy, hrep]
    rfl
  have hidle : checkIdlePoint n y = updLine n (fun l => { transferredLine l with tx := pausedTx (transferredLine l).tx }) y := by
    refine checkIdlePoint_pauses (by rw [hline]; exact hp) ?_ (by rw [hline]; exact hs) (by rw [hline]; exact hsh)
      (by rw [hline]; rfl)
    rw [hline]
    unfold idlePoint
    rw [show ({ beginBreak s.lines[n.val] with rx := brokenRx s.lines[n.val].rx.abandon (beginBreak s.lines[n.val]).rx }
      : LineUnit).tx.state = .idle from hs]
    rfl
  obtain ⟨z, hz⟩ : ∃ z, z = updLine n (fun l => { transferredLine l with tx := pausedTx (transferredLine l).tx }) y := ⟨_, rfl⟩
  have hzline : z.lines[n.val] = turnedLine s.lines[n.val].rx.abandon s.lines[n.val] := by
    rw [hz, updLine_line, hline]
    unfold transferredLine turnedLine
    rw [if_pos (by exact hsh)]
    rfl
  have htx : breakTransmitter n z = z := by
    rw [breakTransmitter_updates (k := id), updTx_id]
    rw [hzline]
    exact .inr (.inr (.inr ⟨hsh, TxState.noConfusion, TxState.noConfusion, rfl⟩))
  unfold detectBreak
  rw [hrx, hidle, ← hz, htx, checkIdlePoint_settled (by rw [hzline]; rfl)]
  have hlines : z = { updLine n (turnedLine s.lines[n.val].rx.abandon) s with
      pool := unstarved n s.pool, port := leftPort (.receiver n) s.port, report := rep } := by
    have hall : updLine n (fun l => { transferredLine l with tx := pausedTx (transferredLine l).tx })
        (updRx n (brokenRx s.lines[n.val].rx.abandon) (updLine n beginBreak s)) =
        updLine n (turnedLine s.lines[n.val].rx.abandon) s := by
      unfold updRx
      rw [updLine_updLine, updLine_updLine]
      refine updLine_congr ?_
      unfold transferredLine turnedLine
      dsimp only
      rw [if_pos (by exact hsh)]
      rfl
    rw [hz, hy]
    exact congrArg (fun x : State => { x with
      pool := unstarved n s.pool, port := leftPort (.receiver n) s.port, report := rep }) hall
  rw [hlines, hrep]
  rfl

end Sys2Proof.Machine

/-! PROOFS. The statement about breaks. -/

namespace Sys2Proof.Receivers
open Sys2Proof.Machine

/-- Settles O30: a break by the receiver's part and the transmitter's, and its end. -/
theorem breakOutcome : Obligations.Break := by
  refine ⟨fun s n l hq hon hp hl => ⟨fun u hin hu => ?_,
    fun h hin ht hs hrx hsend howed hopen hhold hstop hhand hc hatt hline ha hr => ?_, fun hin => ?_⟩,
    fun s n hq hs ht hp hsh hin hrx hi hun hb => ?_⟩
  · have hdue : (fun l => enabled l && !l.inBreak) s.lines[n] = true := by
      show (enabled s.lines[n] && !s.lines[n].inBreak) = true
      rw [enabled_iff.2 hon, hin]
      rfl
    obtain ⟨k, hk, hu⟩ : ∃ k, BrokenTx s.lines[n.val] k ∧ u = { beginBreak s.lines[n.val] with tx := k s.lines[n.val].tx } := by
      subst hl
      rcases hu with ⟨ht, rfl⟩ | ⟨ht, hs, rfl⟩ | ⟨ht, hs, hsend, rfl⟩ | ⟨ht, hi, hs, rfl⟩
      · exact ⟨id, .inl ⟨ht, rfl⟩, rfl⟩
      · exact ⟨pausedTx, .inr (.inl ⟨ht, hs, rfl⟩), rfl⟩
      · exact ⟨distantTx, .inr (.inr (.inl ⟨ht, hs, hsend, rfl⟩)), rfl⟩
      · exact ⟨id, .inr (.inr (.inr ⟨ht, hi, hs, rfl⟩)), rfl⟩
    have hset : (updLine n beginBreak s).lines[n.val].settingsPending = false := by
      rw [beginBreak_line]
      exact hp
    refine ⟨fun hrx => ?_, fun hrx hi hun => ?_⟩
    · show execBreakDetection n s = _
      refine lineEvent_ends hq hdue ((detectBreak_skips hk hp hrx).trans ?_) hq
      rw [hu]
      rfl
    · have hab : Abandons (updLine n beginBreak s).lines[n.val] := by
        rw [beginBreak_line]
        exact ⟨hrx, hi, hun⟩
      have hlast : ∀ kept, { beginBreak s.lines[n.val] with
            tx := k s.lines[n.val].tx, rx := brokenRx kept (beginBreak s.lines[n.val]).rx } =
          { u with rx := { u.rx with
            state := .hunting, fifo := [], pendingGap := false, window := [], asm := Assembly.reset, closePoint := 0,
            idleTimer := none, closeNext := 0, abandon := kept } } := fun kept => by
        rw [hu, brokenRx_eq (r := (beginBreak s.lines[n.val]).rx) hi hun]
      refine ⟨fun hb => ?_, fun f hb hf hc ha => ?_⟩
      · have hrec := (breakReceiver_blockless hab (by rw [beginBreak_line]; exact hb)).trans (brokenAt_settled hset)
        rw [beginBreak_line] at hrec
        refine lineEvent_offers (n := n) (due := fun l => enabled l && !l.inBreak) (f := detectBreak n)
          (p := leftPort (.receiver n) s.port) hq hdue ((detectBreak_receives hk hp hrec).trans ?_) hq
        refine (congrArg (fun l : LineUnit => { s with
          pool := unstarved n s.pool, port := leftPort (.receiver n) s.port, lines := s.lines.set n.val l
          report := (offerReport (plainReport .messageAbandoned n.val 65535 0 s.office.clock) s).report })
          (hlast s.lines[n.val].rx.abandon)).trans ?_
        subst hu
        rfl
      · have hrec := (breakReceiver_linked (f := f) hab (by rw [beginBreak_line]; exact hb) (by rw [beginBreak_line]; exact hf)
          (by exact hc) (by rw [beginBreak_line]; exact ha)).trans (brokenAt_settled hset)
        rw [beginBreak_line] at hrec
        obtain ⟨t, ht, hpart, hreq, -⟩ := lineEvent_part (n := n) (due := fun l => enabled l && !l.inBreak) (f := detectBreak n)
          (e := { s with
            pool := unstarved n s.pool
            lines := s.lines.set n { u with rx := { u.rx with
              state := .hunting, fifo := [], pendingGap := false, window := [], asm := Assembly.reset, closePoint := 0,
              idleTimer := none, closeNext := 0,
              abandon := [⟨f, s.lines[n].rx.asm.blockCount, placedCount (.receiver n) s⟩] } } })
          (p := leftPort (.receiver n) s.port) hq hdue ((detectBreak_receives hk hp hrec).trans 
            (congrArg (fun l : LineUnit => { s with
              pool := unstarved n s.pool, port := leftPort (.receiver n) s.port, lines := s.lines.set n.val l })
              (hlast [⟨f, s.lines[n.val].rx.asm.blockCount, placedCount (.receiver n) s⟩]))) hq
        exact ⟨t, ht, hpart, hreq.trans (portRequests_left _ _)⟩
  · have hdue : (fun l => enabled l && !l.inBreak) s.lines[n] = true := by
      show (enabled s.lines[n] && !s.lines[n].inBreak) = true
      rw [enabled_iff.2 hon, hin]
      rfl
    have hpause : inPause s.lines[n.val].tx = true := by
      simp only [Fin.getElem_fin] at hs hsend howed hopen hhold
      simp [inPause, textReady, hs, hsend, howed, hopen, hhold]
    have hlast : ({ beginBreak s.lines[n.val] with tx := pausedTx (failedTx (droppedTx s.lines[n.val].tx)) } : LineUnit) =
        { l with recovery := true, tx := { s.lines[n].tx with
          state := .pause, send := true, hand := none, textBegun := false, lenKnown := false, callPos := none,
          answerCount := none, answerWindow := [], out := [],
          stale := s.lines[n].tx.stale + s.lines[n].tx.live, live := 0, distantBreak := false,
          breakInPending := false } } := by
      rw [droppedTx_empty (t := s.lines[n.val].tx) hopen hhold, hl]
      rfl
    obtain ⟨d, hd⟩ : ∃ d, d = returnedDelivery n h.number (triedAgain s.lines[n.val].tx.textBegun) s.du := ⟨_, rfl⟩
    have hbody := detectBreak_fails hrx hp ht hs hpause hstop hhand hc hline ha hr hatt
    rw [← hd] at hbody
    have hstate := hbody.trans (congrArg (fun x : LineUnit => offerReport
      (plainReport .deliveryInterrupted n.val (BitVec.ofNat 16 h.number.val) 3 s.office.clock)
      { s with du := d, port := leftPort (.transmitter n) s.port, lines := s.lines.set n.val x n.isLt }) hlast)
    rw [hd] at hstate
    exact lineEvent_offers (n := n) (due := fun l => enabled l && !l.inBreak) (f := detectBreak n)
      (p := leftPort (.transmitter n) s.port) hq hdue hstate hq
  · show execBreakEnd n s = _
    refine lineEvent_ends (n := n) (due := fun l => enabled l && l.inBreak) hq ?_ rfl hq
    show (enabled s.lines[n] && s.lines[n].inBreak) = true
    rw [enabled_iff.2 hon, hin]
    rfl
  · have hdue : (fun l => enabled l && !l.inBreak) s.lines[n] = true := by
      show (enabled s.lines[n] && !s.lines[n].inBreak) = true
      rw [enabled_iff.2 (by rw [hs]; exact TxState.noConfusion), hin]
      rfl
    refine lineEvent_offers (n := n) (due := fun l => enabled l && !l.inBreak) (f := detectBreak n)
      (p := leftPort (.receiver n) s.port) hq hdue ((detectBreak_turns hs hp hsh ⟨hrx, hi, hun⟩ hb).trans ?_) hq
    refine congrArg (fun l : LineUnit => offerReport (plainReport .messageAbandoned n.val 65535 0 s.office.clock) { s with
      pool := unstarved n s.pool, port := leftPort (.receiver n) s.port, lines := s.lines.set n.val l })
      (?_ : turnedLine s.lines[n.val].rx.abandon s.lines[n.val] = _)
    unfold turnedLine
    rw [brokenRx_eq (r := (beginBreak s.lines[n.val]).rx) hi hun]
    rfl

end Sys2Proof.Receivers

/-! SUPPORT. The answer timeout, and the split of a call set. -/

namespace Sys2Proof.Machine

variable {s e : State} {n : LineNo} {d k : DeliveryNo} {h : Hand} {pos : Nat} {p : StorePort}

/-! ## The lowest-numbered entry (R102) -/

theorem lowest_eq_some {m : Nat} {q : Fin m → Bool} {i : Fin m} (hi : q i = true) (hj : ∀ j, j < i → q j = false) :
    lowest q = some i := by
  unfold lowest
  rw [List.find?_eq_some_iff_getElem]
  refine ⟨hi, i.val, by simp, by simp, fun j hji => ?_⟩
  have hlow : q ⟨j, hji.trans i.isLt⟩ = false := hj _ hji
  simp [hlow]

theorem lowest_eq_none {m : Nat} {q : Fin m → Bool} (h : ∀ i, q i = false) : lowest q = none :=
  List.find?_eq_none.2 (fun i _ => by simp [h i])

theorem lowestFreeDelivery_some (hk : s.du.entries[k].state = .free) (hj : ∀ j : DeliveryNo, j < k → s.du.entries[j].state ≠ .free) :
    lowestFreeDelivery s = some k :=
  lowest_eq_some (by rw [hk]; rfl) (fun j h => by simpa using hj j h)

theorem lowestFreeDelivery_none (hj : ∀ j : DeliveryNo, s.du.entries[j].state ≠ .free) : lowestFreeDelivery s = none :=
  lowest_eq_none (fun j => by simpa using hj j)

/-! ## The answer timeout (R153) -/

/-- The transmitter whose answer count has expired. -/
def unansweredTx (t : Transmitter) : Transmitter := { t with answerCount := none, answerWindow := [] }

theorem expireAnswer_eq (hh : s.lines[n.val].tx.hand = some h) (hp : s.lines[n.val].tx.callPos = some pos) :
    expireAnswer n s = nextMember n h pos (updTx n unansweredTx s) := by
  unfold expireAnswer
  simp only [Fin.getElem_fin, hh, hp]
  rfl

/-- The Delivery Unit after a try of delivery `d` is set aside (R110, R111). -/
def setAsideDelivery (s : State) (n : LineNo) (d : DeliveryNo) : DeliveryUnit :=
  { s.du with
    entries := s.du.entries.set d { s.du.entries[d] with
      state := .waiting, attempts := s.du.entries[d].attempts + 1
      retryTime := s.office.clock + BitVec.ofNat 32 (s.office.held.retry * (s.du.entries[d].attempts + 1)) }
    active := s.du.active.set n none }

/-- No member has answered: the try is set aside and a break-in is owed (R110, R156). -/
theorem endCallSet_setsAside (hne : s.du.entries[h.number].callSet ≠ [])
    (hno : ∀ m ∈ s.du.entries[h.number].callSet, m.answered = false) (hc : s.du.entries[h.number].cancelPending = false)
    (hk : s.du.entries[h.number].attempts < 2) (hl : s.du.entries[h.number].line = n) (ha : s.du.active[n] = some h.number) :
    endCallSet n h s = { updTx n (fun t => brokenInTx (droppedTx t)) s with
      du := setAsideDelivery s n h.number, port := leftPort (.transmitter n) s.port } := by
  have hall : ¬ s.du.entries[h.number].callSet.all (fun m => m.answered) = true := fun hall => by
    obtain ⟨m, ms, hm⟩ := List.exists_cons_of_ne_nil hne
    have hmem : m ∈ s.du.entries[h.number].callSet := by rw [hm]; exact List.mem_cons_self ..
    exact Bool.false_ne_true ((hno m hmem).symm.trans (List.all_eq_true.1 hall m hmem))
  have hany : ¬ s.du.entries[h.number].callSet.any (fun m => m.answered) = true := fun hany => by
    obtain ⟨m, hmem, hm⟩ := List.any_eq_true.1 hany
    exact Bool.false_ne_true ((hno m hmem).symm.trans hm)
  have haside : setAsideEntry h.number s = { s with du := setAsideDelivery s n h.number } := by
    subst hl
    unfold setAsideEntry clearActive
    dsimp only
    rw [if_neg (by rw [hc]; exact Bool.false_ne_true), if_pos hk]
    exact if_pos ha
  unfold endCallSet
  dsimp only
  rw [if_neg hall, if_neg hany, haside]
  exact updTx_dropHand brokenInTx _

/-! ## The split of a call set (R155) -/

theorem endCallSet_splits (hlost : ∃ m ∈ s.du.entries[h.number].callSet, m.answered = false)
    (hsome : ∃ m ∈ s.du.entries[h.number].callSet, m.answered = true) :
    endCallSet n h s = enterSending n h (splitUnanswered h.number s) := by
  unfold endCallSet
  dsimp only
  rw [if_neg, if_pos]
  · obtain ⟨m, hmem, hm⟩ := hsome
    exact List.any_eq_true.2 ⟨m, hmem, hm⟩
  · obtain ⟨m, hmem, hm⟩ := hlost
    exact fun hall => Bool.false_ne_true (hm.symm.trans (List.all_eq_true.1 hall m hmem))

/-- The Delivery Unit after the unanswered members of delivery `d` are split off into entry `k` (R155). -/
def splitDelivery (s : State) (d k : DeliveryNo) : DeliveryUnit :=
  { s.du with
    entries := (s.du.entries.set d { s.du.entries[d] with
        callSet := s.du.entries[d].callSet.filter (fun m => m.answered) }).set k
      { state := .waiting, transit := s.du.entries[d].transit, line := s.du.entries[d].line, cls := s.du.entries[d].cls
        queuedTime := s.du.entries[d].queuedTime, attempts := s.du.entries[d].attempts + 1, repeatFlag := false
        retryTime := s.office.clock + BitVec.ofNat 32 (s.office.held.retry * (s.du.entries[d].attempts + 1))
        cancelPending := false, callSet := s.du.entries[d].callSet.filter (fun m => !m.answered) }
    transit := s.du.transit.set s.du.entries[d].transit.val { s.du.transit[s.du.entries[d].transit] with
      outstanding := s.du.transit[s.du.entries[d].transit].outstanding + 1 } }

/-- The head rewrite of a split. -/
def splitRewrite (s : State) (d : DeliveryNo) : Req :=
  byteReq (blockWord s s.du.transit[s.du.entries[d].transit].first 6) true
    (BitVec.ofNat 8 (s.du.transit[s.du.entries[d].transit].outstanding + 1)) .delivery .rewrite

/-- The report of a split. -/
def splitReport (s : State) (d k : DeliveryNo) : Record :=
  plainReport .stationUnanswered s.du.entries[d].line.val (BitVec.ofNat 16 k.val)
    (BitVec.ofNat 8 (s.du.entries[d].callSet.filter (fun m => !m.answered)).length ++ BitVec.ofNat 8 d.val) s.office.clock

theorem unanswered_map (ms : List Member) : (ms.filter (fun m => !m.answered)).map (fun m => { m with answered := false }) =
    ms.filter (fun m => !m.answered) := by
  refine (List.map_congr_left (fun m hm => ?_)).trans (List.map_id _)
  have hno : m.answered = false := by simpa using (List.mem_filter.1 hm).2
  cases m
  dsimp only at hno
  subst hno
  rfl

/-- With room the head rewrite of a split is placed at once. -/
theorem splitUnanswered_places (hk : s.du.entries[d].attempts < 2) (hlow : lowestFreeDelivery s = some k)
    (hr : s.du.rewrites = []) (ho : s.report.offers = []) (hp : PortRoom 1 s.port) :
    splitUnanswered d s = offering ⟨splitReport s d k, true, none⟩ (placedPort (splitRewrite s d) s.port)
      { s with du := splitDelivery s d k } := by
  obtain ⟨u, hu⟩ : ∃ u : State, u = { s with du := { splitDelivery s d k with transit := s.du.transit } } := ⟨_, rfl⟩
  obtain ⟨w, hw⟩ : ∃ w : Rewrite, w = ⟨blockWord s s.du.transit[s.du.entries[d].transit].first 6,
    s.du.transit[s.du.entries[d].transit].outstanding + 1, [splitReport s d k], none⟩ := ⟨_, rfl⟩
  have hrecord : deliveryRecord u .stationUnanswered k (detail2 d.val
      (s.du.entries[d].callSet.filter (fun m => !m.answered)).length) = splitReport s d k := by
    have hentry : u.du.entries[k].line = s.du.entries[d].line := by
      rw [hu]
      show ((s.du.entries.set d _).set k _)[k].line = _
      rw [Fin.getElem_fin, Vector.getElem_set_self]
    rw [deliveryRecord_eq hentry, detail2_eq, hu]
    rfl
  have hbody : splitUnanswered d s = changeCount s.du.entries[d].transit
      (s.du.transit[s.du.entries[d].transit].outstanding + 1) [splitReport s d k] u := by
    rw [← hrecord]
    unfold splitUnanswered
    dsimp only
    rw [if_neg (Nat.not_le.2 hk), hlow]
    dsimp only
    rw [unanswered_map, hu]
    rfl
  have hlisted : ({ u with du := { u.du with
      transit := u.du.transit.set s.du.entries[d].transit.val { u.du.transit[s.du.entries[d].transit] with
        outstanding := s.du.transit[s.du.entries[d].transit].outstanding + 1
        state := u.du.transit[s.du.entries[d].transit].state }
      rewrites := addRewrite (blockWord u u.du.transit[s.du.entries[d].transit].first 6)
        (s.du.transit[s.du.entries[d].transit].outstanding + 1) [splitReport s d k] none u.du.rewrites } } : State) =
      { s with du := { splitDelivery s d k with rewrites := [w] } } := by
    have hrew : u.du.rewrites = [] := by
      rw [hu]
      exact hr
    rw [hrew, hw, hu]
    rfl
  have hempty : ({ splitDelivery s d k with rewrites := [] } : DeliveryUnit) = splitDelivery s d k := by
    unfold splitDelivery
    rw [← hr]
  rw [hbody, changeCount_eq, if_neg (Nat.succ_ne_zero _), if_neg (Nat.succ_ne_zero _), hlisted,
    pumpDelivery_places (s := { s with du := { splitDelivery s d k with rewrites := [w] } }) (w := w) hp rfl]
  have hreq : rewriteReq w = splitRewrite s d := by
    rw [hw]
    rfl
  have hwalk : { s.walker with queue := s.walker.queue ++ w.walk.toList } = s.walker := by
    rw [hw]
    show { s.walker with queue := s.walker.queue ++ [] } = s.walker
    rw [List.append_nil]
  have hoffers : s.report.offers ++ w.reports.map (fun r => { record := r, attached := true, ending := w.walk.bind (fun q => q.transit) }) =
      [⟨splitReport s d k, true, none⟩] := by
    rw [ho, hw]
    rfl
  unfold offerAttached updReport offering
  dsimp only
  rw [hoffers, hreq, hempty, hwalk]

/-- With no delivery entry left, or after two attempts, the one unanswered member has failed (R155). -/
theorem splitUnanswered_fails {m : Member} {reason : Nat} (hl : s.du.entries[d].callSet.filter (fun m => !m.answered) = [m])
    (hreason : (2 ≤ s.du.entries[d].attempts ∧ reason = 2) ∨
      (s.du.entries[d].attempts < 2 ∧ (∀ k : DeliveryNo, s.du.entries[k].state ≠ .free) ∧ reason = 3))
    (hr : s.du.rewrites = []) : splitUnanswered d s = offerReport
      (plainReport .deliveryFailed s.du.entries[d].line.val (BitVec.ofNat 16 d.val)
        (BitVec.ofNat 8 m.station.val ++ BitVec.ofNat 8 reason) s.office.clock)
      (updEntry d (fun e => { e with callSet := e.callSet.filter (fun m => m.answered) }) s) := by
  obtain ⟨u, hu⟩ : ∃ u, u = updEntry d (fun e => { e with callSet := e.callSet.filter (fun m => m.answered) }) s := ⟨_, rfl⟩
  have hline : u.du.entries[d].line = s.du.entries[d].line := by
    rw [hu]
    show (s.du.entries.set d _)[d].line = _
    rw [Fin.getElem_fin, Vector.getElem_set_self]
  have hfailed : reportStationFailed d reason m u = offerReport
      (plainReport .deliveryFailed s.du.entries[d].line.val (BitVec.ofNat 16 d.val)
        (BitVec.ofNat 8 m.station.val ++ BitVec.ofNat 8 reason) s.office.clock) u := by
    unfold reportStationFailed
    rw [reportWithoutCount_plain (by rw [hu]; exact hr), deliveryRecord_eq hline, detail2_eq, hu]
    rfl
  rw [← hu, ← hfailed]
  unfold splitUnanswered
  dsimp only
  rw [hl, ← hu]
  rcases hreason with ⟨hk, rfl⟩ | ⟨hk, hfree, rfl⟩
  · rw [if_pos hk]
    rfl
  · rw [if_neg (Nat.not_le.2 hk), lowestFreeDelivery_none hfree]
    rfl

/-- The text begins while a report waits to be taken. -/
theorem enterSending_offering {o : Offer} (ho : e.lines[n.val].tx.out = []) (hp : PortRoom 2 p) :
    enterSending n h (offering o p e) = offering o (placedAll (firstReads e n h) p)
      (updTx n (fun t => { begunTx h (openingCodes e h) t with live := t.live + 2 }) e) :=
  enterSending_room (s := offering o p e) ho hp

theorem offerReport_offering {r : Record} (ho : e.report.offers = []) : offerReport r e = offering ⟨r, false, none⟩ e.port e := by
  unfold offerReport offering updReport
  dsimp only
  rw [ho]
  rfl

theorem settle_offering_part {o : Offer} (hq : Quiet e) (hr : RingRoom 1 e) (hp : PortRoom 4 p) :
    SamePart e (settle (offering o p e)) ∧ (settle (offering o p e)).report.fill = e.report.fill + 1 ∧
      requests (settle (offering o p e)) = portRequests p ++ reportWords e e.report.fill o.record := by
  rw [settle_offering hq hr hp, ← portRequests_placedAll]
  exact eventEnd_accepted_part _ e

end Sys2Proof.Machine

/-! PROOFS. The statement about the answer timeout. -/

namespace Sys2Proof.Samplers
open Sys2Proof.Machine

/-- Settles O53: the next member, the try set aside, and the split. -/
theorem answerTimeout : Obligations.AnswerTimeout := by
  intro s n h pos hq hs hh hp
  have hdue : (s.lines[n].tx.state == .answerWait) = true := by
    rw [hs]
    rfl
  refine ⟨fun m hm => ?_, fun hlen hne hno hc hk hl ha => ?_, fun d lost tx reads hlen hd hlost hne hsome hact hrew hout htx hreads =>
    ⟨fun k hk hfree hlow hroom hring => ?_, fun m reason hm hroom hring hreason => ?_⟩⟩
  · refine lineEvent_ends (n := n) (due := fun l => l.tx.state == .answerWait) (f := expireAnswer n) hq hdue
      ((expireAnswer_eq hh hp).trans ((nextMember_calls hm).trans ?_)) hq
    unfold enterCalling
    rw [updTx_updTx]
    rfl
  · have hend := endCallSet_setsAside (s := updTx n unansweredTx s) (n := n) hne hno hc hk hl ha
    have hbody : expireAnswer n s = { updTx n (fun t => brokenInTx (droppedTx (unansweredTx t))) s with
        du := setAsideDelivery s n h.number, port := leftPort (.transmitter n) s.port } := by
      refine (expireAnswer_eq hh hp).trans ((nextMember_ends (List.getElem?_eq_none hlen)).trans (hend.trans ?_))
      exact congrArg (fun x : State => { x with
        du := setAsideDelivery s n h.number, port := leftPort (.transmitter n) s.port })
        (updTx_updTx (fun t => brokenInTx (droppedTx t)) unansweredTx s)
    obtain ⟨t, ht, hpart, -⟩ := lineEvent_part (n := n) (due := fun l => l.tx.state == .answerWait) (f := expireAnswer n)
      (e := { updTx n (fun t => brokenInTx (droppedTx (unansweredTx t))) s with du := setAsideDelivery s n h.number })
      hq hdue hbody hq
    exact ⟨t, ht, hpart⟩
  · subst hd hlost htx hreads
    have hlost : ∃ m ∈ s.du.entries[h.number].callSet, m.answered = false := by
      obtain ⟨m, hm⟩ := List.exists_mem_of_ne_nil _ hne
      exact ⟨m, List.mem_of_mem_filter hm, by simpa using List.of_mem_filter hm⟩
    obtain ⟨e, he⟩ : ∃ e : State, e = { updTx n unansweredTx s with du := splitDelivery s h.number k } := ⟨_, rfl⟩
    have hsplit := splitUnanswered_places (s := updTx n unansweredTx s) (d := h.number) (k := k) hk
      (lowestFreeDelivery_some (s := updTx n unansweredTx s) hfree hlow) hrew hq.2.2 (PortRoom.mono hroom (by decide))
    have hplaced : PortRoom 6 (placedPort (splitRewrite s h.number) s.port) := PortRoom.placed (p := s.port) hroom _
    have hbody : expireAnswer n s = offering ⟨splitReport s h.number k, true, none⟩
        (placedAll (firstReads s n h) (placedPort (splitRewrite s h.number) s.port))
        (updTx n (fun t => { begunTx h (openingCodes s h) t with live := t.live + 2 }) e) := by
      rw [expireAnswer_eq hh hp, nextMember_ends (List.getElem?_eq_none hlen),
        endCallSet_splits (s := updTx n unansweredTx s) hlost hsome, hsplit]
      have hline : e.lines[n.val].tx.out = [] := by
        rw [he]
        show (updTx n unansweredTx s).lines[n.val].tx.out = []
        rw [updTx_line]
        exact hout
      have hbegun := enterSending_offering (h := h) (o := ⟨splitReport s h.number k, true, none⟩) hline (hplaced.mono (by decide))
      rw [he] at hbegun ⊢
      exact hbegun
    obtain ⟨hpart, hfill, hreq⟩ := settle_offering_part (e := updTx n (fun t => { begunTx h (openingCodes s h) t with live := t.live + 2 }) e)
      (o := ⟨splitReport s h.number k, true, none⟩) (p := placedAll (firstReads s n h) (placedPort (splitRewrite s h.number) s.port))
      (by rw [he]; exact hq) (by rw [he]; exact hring) (PortRoom.placedAll hplaced)
    have hall : updTx n (fun t => { begunTx h (openingCodes s h) t with live := t.live + 2 }) e =
        { updTx n (fun t => { begunTx h (openingCodes s h) (unansweredTx t) with live := t.live + 2 }) s with
          du := splitDelivery s h.number k } := by
      rw [he]
      exact congrArg (fun x : State => { x with du := splitDelivery s h.number k })
        (updTx_updTx (fun t => { begunTx h (openingCodes s h) t with live := t.live + 2 }) unansweredTx s)
    refine ⟨_, (lineEvent_due (n := n) (due := fun l => l.tx.state == .answerWait) (f := expireAnswer n) hq.1 hdue).trans
      (congrArg (fun x => Host.Outcome.next (settle x)) hbody), ?_, ?_, ?_⟩
    · rw [hall] at hpart ⊢
      exact hpart
    · rw [hfill, he]
      rfl
    · rw [hreq, portRequests_placedAll, portRequests_placed, he]
      simp only [List.append_assoc]
      rfl
  · subst hd hlost htx hreads
    have hlost : ∃ m ∈ s.du.entries[h.number].callSet, m.answered = false := by
      obtain ⟨m, hm⟩ := List.exists_mem_of_ne_nil _ hne
      exact ⟨m, List.mem_of_mem_filter hm, by simpa using List.of_mem_filter hm⟩
    obtain ⟨r, hr⟩ : ∃ r, r = plainReport .deliveryFailed s.du.entries[h.number].line.val (BitVec.ofNat 16 h.number.val)
      (BitVec.ofNat 8 m.station.val ++ BitVec.ofNat 8 reason) s.office.clock := ⟨_, rfl⟩
    obtain ⟨e, he⟩ : ∃ e, e = updEntry h.number (fun e => { e with callSet := e.callSet.filter (fun m => m.answered) })
      (updTx n unansweredTx s) := ⟨_, rfl⟩
    have hsplit : splitUnanswered h.number (updTx n unansweredTx s) = offering ⟨r, false, none⟩ s.port e := by
      have hfails := splitUnanswered_fails (s := updTx n unansweredTx s) (d := h.number) hm hreason hrew
      have hoffer : offerReport r e = offering ⟨r, false, none⟩ e.port e := offerReport_offering (by rw [he]; exact hq.2.2)
      rw [he, hr] at hoffer
      rw [he, hr]
      exact hfails.trans hoffer
    have hbody : expireAnswer n s = offering ⟨r, false, none⟩ (placedAll (firstReads s n h) s.port)
        (updTx n (fun t => { begunTx h (openingCodes s h) t with live := t.live + 2 }) e) := by
      rw [expireAnswer_eq hh hp, nextMember_ends (List.getElem?_eq_none hlen),
        endCallSet_splits (s := updTx n unansweredTx s) hlost hsome, hsplit]
      have hline : e.lines[n.val].tx.out = [] := by
        rw [he]
        show (updTx n unansweredTx s).lines[n.val].tx.out = []
        rw [updTx_line]
        exact hout
      have hbegun := enterSending_offering (h := h) (o := ⟨r, false, none⟩) (p := s.port) hline (PortRoom.mono hroom (by decide))
      rw [he] at hbegun ⊢
      exact hbegun
    obtain ⟨hpart, hfill, hreq⟩ := settle_offering_part (e := updTx n (fun t => { begunTx h (openingCodes s h) t with live := t.live + 2 }) e)
      (o := ⟨r, false, none⟩) (p := placedAll (firstReads s n h) s.port)
      (by rw [he]; exact hq) (by rw [he]; exact hring) (PortRoom.placedAll (p := s.port) hroom)
    have hall : updTx n (fun t => { begunTx h (openingCodes s h) t with live := t.live + 2 }) e =
        updEntry h.number (fun e => { e with callSet := e.callSet.filter (fun m => m.answered) })
          (updTx n (fun t => { begunTx h (openingCodes s h) (unansweredTx t) with live := t.live + 2 }) s) := by
      rw [he]
      exact congrArg (updEntry h.number (fun e => { e with callSet := e.callSet.filter (fun m => m.answered) }))
        (updTx_updTx (fun t => { begunTx h (openingCodes s h) t with live := t.live + 2 }) unansweredTx s)
    refine ⟨_, (lineEvent_due (n := n) (due := fun l => l.tx.state == .answerWait) (f := expireAnswer n) hq.1 hdue).trans
      (congrArg (fun x => Host.Outcome.next (settle x)) hbody), ?_, ?_, ?_⟩
    · rw [hall] at hpart ⊢
      exact hpart
    · rw [hfill, he]
      rfl
    · rw [hreq, portRequests_placedAll, hr, he]
      rfl

end Sys2Proof.Samplers

/-! SUPPORT. The routing event. -/

namespace Sys2Proof.Machine

variable {s e u : State} {n : LineNo} {d : DeliveryNo} {k : TransitNo} {m : MessageRecord} {plan : List Planned}

/-! ## The deliveries that are made (R97, R102) -/

/-- The delivery table with the planned deliveries in the entries taken. -/
def plannedEntries (g : Planned → Delivery) (taken : List (DeliveryNo × Planned)) (es : Vector Delivery 256) : Vector Delivery 256 :=
  taken.foldl (fun es x => es.set x.1.val (g x.2) x.1.isLt) es

/-- The line queues after the planned deliveries have joined them. -/
def plannedQueues (taken : List (DeliveryNo × Planned)) (qs : Vector (List DeliveryNo) 24) : Vector (List DeliveryNo) 24 :=
  taken.foldl (fun qs x => qs.set x.2.line.val (qs[x.2.line] ++ [x.1]) x.2.line.isLt) qs

theorem foldl_updEntry (g : Planned → Delivery) (taken : List (DeliveryNo × Planned)) (s : State) :
    taken.foldl (fun u x => updEntry x.1 (fun _ => g x.2) u) s =
      { s with du := { s.du with entries := plannedEntries g taken s.du.entries } } := by
  induction taken generalizing s with
  | nil => rfl
  | cons x taken ih =>
    rw [List.foldl_cons, ih]
    rfl

theorem plannedEntries_away {g : Planned → Delivery} {taken : List (DeliveryNo × Planned)} (es : Vector Delivery 256)
    (h : ∀ x ∈ taken, x.1 ≠ d) : (plannedEntries g taken es)[d] = es[d] := by
  induction taken generalizing es with
  | nil => rfl
  | cons x taken ih =>
    rw [List.forall_mem_cons] at h
    unfold plannedEntries
    rw [List.foldl_cons]
    refine (ih _ h.2).trans ?_
    exact Vector.getElem_set_ne _ _ (fun heq => h.1 (Fin.ext heq))

theorem plannedEntries_taken {g : Planned → Delivery} {taken : List (DeliveryNo × Planned)} (es : Vector Delivery 256)
    (hnodup : (taken.map Prod.fst).Nodup) {x : DeliveryNo × Planned} (hx : x ∈ taken) :
    (plannedEntries g taken es)[x.1] = g x.2 := by
  induction taken generalizing es with
  | nil => exact absurd hx List.not_mem_nil
  | cons y taken ih =>
    rw [List.map_cons, List.nodup_cons] at hnodup
    unfold plannedEntries
    rw [List.foldl_cons]
    rcases List.mem_cons.1 hx with rfl | hx
    · have hother : ∀ z ∈ taken, z.1 ≠ x.1 := fun z hz heq => by
        rw [← heq] at hnodup
        exact hnodup.1 (List.mem_map_of_mem hz)
      refine (plannedEntries_away _ hother).trans ?_
      exact Vector.getElem_set_self _
    · exact ih _ hnodup.2 hx

theorem plannedQueues_at (taken : List (DeliveryNo × Planned)) (qs : Vector (List DeliveryNo) 24) (n : LineNo) :
    (plannedQueues taken qs)[n] = qs[n] ++ (taken.filter (fun x => x.2.line == n)).map (fun x => x.1) := by
  induction taken generalizing qs with
  | nil => simp [plannedQueues]
  | cons x taken ih =>
    unfold plannedQueues
    rw [List.foldl_cons]
    refine (ih _).trans ?_
    by_cases hn : x.2.line = n
    · subst hn
      simp
    · have hget : (qs.set x.2.line.val (qs[x.2.line] ++ [x.1]) x.2.line.isLt)[n] = qs[n] :=
        Vector.getElem_set_ne _ _ (fun heq => hn (Fin.ext heq))
      rw [hget, List.filter_cons_of_neg (by simpa using hn)]

theorem map_fst_zip {α β : Type} (xs : List α) (ys : List β) : (xs.zip ys).map Prod.fst = xs.take ys.length := by
  induction xs generalizing ys with
  | nil => simp
  | cons x xs ih => cases ys <;> simp [ih]

theorem nodup_keys {β : Type} {xs : List DeliveryNo} (h : xs.Nodup) (ys : List β) : ((xs.zip ys).map Prod.fst).Nodup := by
  rw [map_fst_zip]
  exact h.sublist (List.take_sublist _ _)

/-! ## The enqueues (R106) -/

/-- An enqueue that makes no selection and no preemption. -/
theorem enqueue_joins (hn : s.du.entries[d].line = n) (hi : s.lines[n.val].tx.state ≠ .idle)
    (hc : s.du.entries[d].cls ≠ 0 ∨ s.lines[n.val].tx.hand = none) : enqueue d s = updQueue n (fun q => q ++ [d]) s := by
  rw [enqueue_away hn hi]
  split
  · next h =>
    have hhand : (updQueue n (fun q => q ++ [d]) s).lines[n.val].tx.hand = none := hc.resolve_left (fun hne => hne h)
    unfold preemptionTest
    simp only [Fin.getElem_fin, hhand]
  · rfl

theorem foldl_enqueue {taken : List (DeliveryNo × Planned)} (hline : ∀ x ∈ taken, s.du.entries[x.1].line = x.2.line)
    (hi : ∀ n : LineNo, s.lines[n].tx.state ≠ .idle)
    (hc : ∀ x ∈ taken, s.du.entries[x.1].cls ≠ 0 ∨ ∀ n : LineNo, s.lines[n].tx.hand = none) :
    taken.foldl (fun s x => enqueue x.1 s) s = { s with du := { s.du with queues := plannedQueues taken s.du.queues } } := by
  induction taken generalizing s with
  | nil => rfl
  | cons x taken ih =>
    rw [List.forall_mem_cons] at hline hc
    rw [List.foldl_cons, enqueue_joins hline.1 (hi _) (hc.1.imp id (fun h => h _))]
    refine (ih (s := updQueue x.2.line (fun q => q ++ [x.1]) s) hline.2 hi hc.2).trans ?_
    rfl

/-! ## What an enqueue leaves of the transit table -/

/-- The transit table is kept, and so are the declared classes. -/
structure TransitKept (s u : State) : Prop where
  transit : u.du.transit = s.du.transit
  cls : ∀ d : DeliveryNo, u.du.entries[d].cls = s.du.entries[d].cls

theorem TransitKept.trans {v : State} (h : TransitKept s u) (k : TransitKept u v) : TransitKept s v :=
  ⟨k.transit.trans h.transit, fun d => (k.cls d).trans (h.cls d)⟩

theorem takeDelivery_du (n : LineNo) (d : DeliveryNo) (s : State) : (takeDelivery n d s).du = activeDelivery n d s.du := by
  unfold takeDelivery
  dsimp only
  split
  · rfl
  · obtain ⟨tx, p, hframe, -⟩ := enterSending_frame n (handOf d (makeActive n d s)) (updTx n (fun t => { t with
      hand := some (handOf d (makeActive n d s)), textBegun := false, guardCount := none }) (makeActive n d s))
    rw [hframe]
    rfl

theorem transitKept_takeDelivery (n : LineNo) (d : DeliveryNo) (s : State) : TransitKept s (takeDelivery n d s) := by
  refine ⟨by rw [takeDelivery_du]; rfl, fun x => ?_⟩
  rw [takeDelivery_du]
  unfold activeDelivery
  dsimp only
  by_cases h : d = x
  · subst h
    rw [Fin.getElem_fin, Vector.getElem_set_self]
  · rw [Fin.getElem_fin, Vector.getElem_set_ne _ _ (fun heq => h (Fin.ext heq))]
    rfl

theorem transitKept_idleOccasion (n : LineNo) (s : State) : TransitKept s (idleOccasion n s) := by
  unfold idleOccasion
  split
  · unfold selectOr
    split
    · exact transitKept_takeDelivery _ _ _
    · exact ⟨rfl, fun _ => rfl⟩
  · unfold tellQueue
    split <;> exact ⟨rfl, fun _ => rfl⟩

theorem transitKept_enqueue (hc : s.du.entries[d].cls ≠ 0) : TransitKept s (enqueue d s) := by
  unfold enqueue
  dsimp only
  rw [if_neg hc]
  split
  · exact TransitKept.trans (u := updQueue s.du.entries[d].line (fun q => q ++ [d]) s) ⟨rfl, fun _ => rfl⟩
      (transitKept_idleOccasion _ _)
  · exact ⟨rfl, fun _ => rfl⟩

theorem transitKept_foldl {taken : List (DeliveryNo × Planned)} (hc : ∀ x ∈ taken, s.du.entries[x.1].cls ≠ 0) :
    TransitKept s (taken.foldl (fun s x => enqueue x.1 s) s) := by
  induction taken generalizing s with
  | nil => exact ⟨rfl, fun _ => rfl⟩
  | cons x taken ih =>
    rw [List.forall_mem_cons] at hc
    have hfirst := transitKept_enqueue hc.1
    exact hfirst.trans (ih (fun y hy => by rw [hfirst.cls]; exact hc.2 y hy))

/-! ## The routing event (R96 to R99) -/

/-- The transit entry of a message that is routed (R97). -/
def liveTransit (m : MessageRecord) (count : Nat) : Transit :=
  { state := .live, first := m.first, blockCount := m.blockCount, origin := m.origin, autoRelease := m.autoRelease
    outstanding := count }

/-- The machine whose transit entry `k` is taken. -/
def transitTaken (m : MessageRecord) (count : Nat) (k : TransitNo) (s : State) : State :=
  updTransit k (fun _ => liveTransit m count) s

/-- The report of a routing event (R98). -/
def routedReport (s : State) (m : MessageRecord) (count : Nat) : Record :=
  plainReport .messageRouted m.origin (BitVec.ofNat 16 m.first)
    (BitVec.ofNat 8 (messageUnroutable s m) ++ BitVec.ofNat 8 count) s.office.clock

theorem routeMessage_holds {reason : Nat} (h : (deliveryPlan s m = [] ∧ reason = 3) ∨ (deliveryPlan s m ≠ [] ∧
    ((∀ k : TransitNo, s.du.transit[k].state ≠ .free) ∨ freeDeliveries s < (deliveryPlan s m).length) ∧ reason = 4)) :
    routeMessage m s = holdMessage m reason s := by
  unfold routeMessage
  dsimp only
  rcases h with ⟨hp, rfl⟩ | ⟨hp, hfull, rfl⟩
  · exact if_pos hp
  · rw [if_neg hp]
    split
    · rfl
    · next t ht =>
      have hfree : s.du.transit[t].state = .free := by simpa using List.find?_some ht
      exact if_pos (hfull.resolve_left (fun hno => hno t hfree))

theorem lowestFreeTransit_some (hk : s.du.transit[k].state = .free) (hj : ∀ j : TransitNo, j < k → s.du.transit[j].state ≠ .free) :
    lowestFreeTransit s = some k :=
  lowest_eq_some (by rw [hk]; rfl) (fun j h => by simpa using hj j h)

theorem routeMessage_routes (hp : deliveryPlan s m ≠ []) (hf : (deliveryPlan s m).length ≤ freeDeliveries s)
    (hk : s.du.transit[k].state = .free) (hj : ∀ j : TransitNo, j < k → s.du.transit[j].state ≠ .free) :
    routeMessage m s = offerReport (routedReport s m (deliveryPlan s m).length)
      (changeCount k (deliveryPlan s m).length []
        (makeDeliveries k m.cls (deliveryPlan s m) (transitTaken m (deliveryPlan s m).length k s))) := by
  unfold routeMessage
  dsimp only
  rw [if_neg hp, lowestFreeTransit_some hk hj]
  dsimp only
  rw [if_neg (Nat.not_lt.2 hf)]
  unfold makeRouted
  rw [detail2_eq]
  rfl

/-- The deliveries before they are enqueued. -/
def entriesTaken (k : TransitNo) (cls : Nat) (taken : List (DeliveryNo × Planned)) (s : State) : State :=
  { s with du := { s.du with entries := plannedEntries (plannedEntry s k cls) taken s.du.entries } }

theorem makeDeliveries_eq (k : TransitNo) (cls : Nat) (plan : List Planned) (s : State) : makeDeliveries k cls plan s =
    ((freeNumbers s).zip plan).foldl (fun s x => enqueue x.1 s) (entriesTaken k cls ((freeNumbers s).zip plan) s) := by
  unfold makeDeliveries
  dsimp only
  rw [foldl_updEntry]
  rfl

theorem freeNumbers_nodup (s : State) : (freeNumbers s).Nodup := (List.nodup_finRange 256).filter _

theorem entriesTaken_at {cls : Nat} {x : DeliveryNo × Planned} (hx : x ∈ (freeNumbers s).zip plan) :
    (entriesTaken k cls ((freeNumbers s).zip plan) s).du.entries[x.1] = plannedEntry s k cls x.2 :=
  plannedEntries_taken _ (nodup_keys (freeNumbers_nodup s) plan) hx

/-- Where no line is IDLE and no preemption can come about the deliveries only join their queues. -/
theorem makeDeliveries_joins {cls : Nat} (hi : ∀ n : LineNo, s.lines[n].tx.state ≠ .idle)
    (hc : cls ≠ 0 ∨ ∀ n : LineNo, s.lines[n].tx.hand = none) :
    makeDeliveries k cls plan s = { s with du := { s.du with
      entries := plannedEntries (plannedEntry s k cls) ((freeNumbers s).zip plan) s.du.entries
      queues := plannedQueues ((freeNumbers s).zip plan) s.du.queues } } := by
  rw [makeDeliveries_eq, foldl_enqueue (s := entriesTaken k cls ((freeNumbers s).zip plan) s)
    (fun x hx => by rw [entriesTaken_at hx]; rfl) hi (fun x hx => hc.imp (fun h => by rw [entriesTaken_at hx]; exact h) id)]
  rfl

theorem transit_makeDeliveries {cls : Nat} (h : cls ≠ 0 ∨ ∀ n : LineNo, s.lines[n].tx.hand = none ∧ s.lines[n].tx.state ≠ .idle) :
    (makeDeliveries k cls plan s).du.transit = s.du.transit := by
  rcases h with h | h
  · rw [makeDeliveries_eq]
    exact (transitKept_foldl (fun x hx => by rw [entriesTaken_at hx]; exact h)).transit
  · rw [makeDeliveries_joins (fun n => (h n).2) (.inr (fun n => (h n).1))]

theorem transit_pumpDelivery {ts : Vector Transit 128} (h : s.du.transit = ts) : (pumpDelivery s).du.transit = ts := by
  refine pump_keeps (P := fun u => u.du.transit = ts) (fun _ _ h => h) (fun u h => ?_) h
  unfold rewritePlaced
  split
  · exact h
  · dsimp only
    split <;> exact h

/-- A head rewrite that carries no report and no walk is placed at once where there is room. -/
theorem changeCount_plain {count : Nat} (hc : count ≠ 0) (hr : s.du.rewrites = []) (hp : PortRoom 1 s.port) :
    ∃ ts, changeCount k count [] s = { s with
      du := { s.du with transit := ts }
      port := placedPort (byteReq (blockWord s s.du.transit[k].first 6) true (BitVec.ofNat 8 count) .delivery .rewrite) s.port } := by
  rw [changeCount_eq, if_neg hc, if_neg hc, hr]
  obtain ⟨ts, hts⟩ : ∃ ts, ts = s.du.transit.set k.val { s.du.transit[k] with outstanding := count } := ⟨_, rfl⟩
  refine ⟨ts, ?_⟩
  obtain ⟨u, hu⟩ : ∃ u : State, u = { s with du := { s.du with
    transit := ts, rewrites := [⟨blockWord s s.du.transit[k].first 6, count, [], none⟩] } } := ⟨_, rfl⟩
  have hplaces := pumpDelivery_places (s := u) (w := ⟨blockWord s s.du.transit[k].first 6, count, [], none⟩)
    (by rw [hu]; exact hp) (by rw [hu])
  have hempty : ({ s.du with transit := ts, rewrites := [] } : DeliveryUnit) = { s.du with transit := ts } := by rw [← hr]
  have hwalk : ({ s.walker with queue := s.walker.queue ++ [] } : ChainWalker) = s.walker := by rw [List.append_nil]
  have hoffers : ({ s.report with offers := s.report.offers ++ [] } : ReportUnit) = s.report := by rw [List.append_nil]
  rw [← hts]
  rw [hu] at hplaces
  refine hplaces.trans ?_
  show ({ s with
    du := { s.du with transit := ts, rewrites := [] }
    port := placedPort (byteReq (blockWord s s.du.transit[k].first 6) true (BitVec.ofNat 8 count) .delivery .rewrite) s.port
    walker := { s.walker with queue := s.walker.queue ++ [] }
    report := { s.report with offers := s.report.offers ++ [] } } : State) = _
  rw [hwalk, hoffers, hempty]

end Sys2Proof.Machine

/-! PROOFS. The statement about the routing event. -/

namespace Sys2Proof.Deliveries
open Sys2Proof.Machine

/-- Settles O37: the hold, the transit entry that is taken, and the deliveries that are made. -/
theorem routingOutcome : Obligations.RoutingOutcome := by
  rintro s m plan rfl
  refine ⟨fun reason h => routeMessage_holds h, fun k hp hf hk hcls hj => ?_, fun k taken t ho ht hlen hp hf hk hj hi hc hr hroom hring htaken => ?_⟩
  · have hne : (deliveryPlan s m).length ≠ 0 := fun h => hp (List.length_eq_zero_iff.1 h)
    have hmade := transit_makeDeliveries (k := k) (cls := m.cls) (plan := deliveryPlan s m)
      (s := transitTaken m (deliveryPlan s m).length k s) hcls
    have htransit : (routeMessage m s).du.transit = s.du.transit.set k.val (liveTransit m (deliveryPlan s m).length) k.isLt := by
      rw [routeMessage_routes hp hf hk hj]
      show (changeCount _ _ _ _).du.transit = _
      rw [changeCount_eq]
      refine transit_pumpDelivery ?_
      dsimp only
      have hself : (transitTaken m (deliveryPlan s m).length k s).du.transit[k] = liveTransit m (deliveryPlan s m).length :=
        Vector.getElem_set_self _
      rw [hmade, if_neg hne, hself]
      exact Vector.set_set _ _
    refine ⟨?_, fun j hj => ?_⟩
    · rw [htransit, Fin.getElem_fin, Vector.getElem_set_self]
      rfl
    · rw [htransit]
      exact Vector.getElem_set_ne _ _ (fun heq => hj (Fin.ext heq.symm))
  · have hmade := makeDeliveries_joins (k := k) (cls := m.cls) (plan := deliveryPlan s m)
      (s := transitTaken m (deliveryPlan s m).length k s) hi hc
    obtain ⟨v, hv⟩ : ∃ v, v = makeDeliveries k m.cls (deliveryPlan s m) (transitTaken m (deliveryPlan s m).length k s) := ⟨_, rfl⟩
    rw [← hv] at hmade
    obtain ⟨ts, hts⟩ := changeCount_plain (s := v) (k := k) (count := (deliveryPlan s m).length)
      (fun h => hp (List.length_eq_zero_iff.1 h)) (by rw [hmade]; exact hr) (by rw [hmade]; exact PortRoom.mono hroom (by decide))
    have hkey : v.du.transit[k].first = m.first := by
      rw [hmade]
      show (s.du.transit.set k.val (liveTransit m (deliveryPlan s m).length) k.isLt)[k].first = _
      rw [Fin.getElem_fin, Vector.getElem_set_self]
      rfl
    obtain ⟨q, hq⟩ : ∃ q, q = byteReq (blockWord s m.first 6) true (BitVec.ofNat 8 (deliveryPlan s m).length) .delivery .rewrite :=
      ⟨_, rfl⟩
    obtain ⟨du, hdu⟩ : ∃ du : DeliveryUnit, du = { v.du with transit := ts } := ⟨_, rfl⟩
    have hchange : changeCount k (deliveryPlan s m).length [] v = { s with du := du, port := placedPort q s.port } := by
      rw [hts, hkey, hdu, hq, hmade]
      rfl
    have hroute : routeMessage m s = offering ⟨routedReport s m (deliveryPlan s m).length, false, none⟩ (placedPort q s.port)
        { s with du := du } := by
      rw [routeMessage_routes hp hf hk hj, ← hv, hchange]
      exact offerReport_offering (e := { s with du := du, port := placedPort q s.port }) ho
    have htaken' : taken = (freeNumbers (transitTaken m (deliveryPlan s m).length k s)).zip (deliveryPlan s m) := htaken
    have hend : t = accepted (placedAll (reportWords s s.report.fill (routedReport s m (deliveryPlan s m).length))
        (placedPort q s.port)) { s with du := du } := by
      rw [ht, hroute]
      exact takeUntil_one (e := { s with du := du }) rfl ho hring (PortRoom.placed (p := s.port) hroom _)
    have hentries : t.du.entries = plannedEntries (plannedEntry (transitTaken m (deliveryPlan s m).length k s) k m.cls) taken
        s.du.entries := by
      rw [hend, htaken']
      show du.entries = _
      rw [hdu, hmade]
      rfl
    have hqueues : t.du.queues = plannedQueues taken s.du.queues := by
      rw [hend, htaken']
      show du.queues = _
      rw [hdu, hmade]
      rfl
    refine ⟨fun x hx => ?_, fun d hd => ?_, fun n => ?_, ?_, ?_, ?_⟩
    · rw [hentries, plannedEntries_taken _ (by rw [htaken']; exact nodup_keys (freeNumbers_nodup _) _) hx]
      rfl
    · rw [hentries]
      exact plannedEntries_away _ hd
    · rw [hqueues]
      exact plannedQueues_at _ _ _
    · rw [hend]
      rfl
    · rw [hend]
      refine (portRequests_placedAll _ _).trans ?_
      rw [portRequests_placed, hq, List.append_assoc]
      rfl
    · rw [hend]
      rfl

end Sys2Proof.Deliveries

/-! SUPPORT. The delivery plan. -/

namespace Sys2Proof.Machine

variable {s : State} {n : LineNo} {α β : Type} [DecidableEq α] [DecidableEq β]

/-! ## Lists without repetitions (R92, R93) -/

theorem dropDuplicates_filter (q : α → Bool) (xs : List α) : dropDuplicates (xs.filter q) = (dropDuplicates xs).filter q := by
  induction xs with
  | nil => rfl
  | cons x xs ih =>
    by_cases hx : q x = true
    · rw [List.filter_cons_of_pos hx, dropDuplicates, dropDuplicates, List.filter_cons_of_pos hx, ih, List.filter_comm]
    · rw [List.filter_cons_of_neg hx, dropDuplicates, List.filter_cons_of_neg hx, ih, List.filter_filter]
      refine List.filter_congr (fun y _ => ?_)
      by_cases hy : y = x
      · subst hy
        simp [hx]
      · simp [hy]

theorem eraseDups_eq (xs : List α) : xs.eraseDups = dropDuplicates xs := by
  induction hlen : xs.length using Nat.strong_induction_on generalizing xs with
  | _ m ih =>
    cases xs with
    | nil => rfl
    | cons x xs =>
      rw [List.eraseDups_cons, ih _ (by rw [← hlen]; exact Nat.lt_succ_of_le (List.length_filter_le _ _)) _ rfl,
        dropDuplicates_filter, dropDuplicates]
      refine congrArg (x :: ·) (List.filter_congr (fun y _ => ?_))
      by_cases hy : y = x <;> simp [hy]

theorem mem_dropDuplicates {x : α} {xs : List α} : x ∈ dropDuplicates xs ↔ x ∈ xs := by
  rw [← eraseDups_eq, List.mem_eraseDups]

theorem dropDuplicates_nodup (xs : List α) : (dropDuplicates xs).Nodup := by
  induction xs with
  | nil => exact List.nodup_nil
  | cons x xs ih =>
    rw [dropDuplicates, List.nodup_cons]
    exact ⟨fun h => by simpa using (List.mem_filter.1 h).2, ih.filter _⟩

theorem dropDuplicates_length_le (xs : List α) : (dropDuplicates xs).length ≤ xs.length := by
  induction xs with
  | nil => exact Nat.le_refl _
  | cons x xs ih =>
    rw [dropDuplicates]
    exact Nat.succ_le_succ ((List.length_filter_le _ _).trans ih)

theorem dropDuplicates_map {f : α → β} (hf : Function.Injective f) (xs : List α) :
    dropDuplicates (xs.map f) = (dropDuplicates xs).map f := by
  induction xs with
  | nil => rfl
  | cons x xs ih =>
    rw [List.map_cons, dropDuplicates, dropDuplicates, List.map_cons, ih, List.filter_map]
    refine congrArg (fun l => f x :: l.map f) (List.filter_congr (fun y _ => ?_))
    simp [hf.eq_iff]

/-- Distinct lines share the stations out. -/
theorem sum_filter_le {γ : Type} {f : γ → α} {ls : List α} (h : ls.Nodup) (xs : List γ) :
    (ls.map (fun n => (xs.filter (fun x => f x == n)).length)).sum ≤ xs.length := by
  induction ls generalizing xs with
  | nil => exact Nat.zero_le _
  | cons n ls ih =>
    rw [List.nodup_cons] at h
    have hrest : ls.map (fun j => (xs.filter (fun x => f x == j)).length) =
        ls.map (fun j => ((xs.filter (fun x => !(f x == n))).filter (fun x => f x == j)).length) := by
      refine List.map_congr_left (fun j hj => congrArg List.length ?_)
      rw [List.filter_filter]
      refine List.filter_congr (fun x _ => ?_)
      by_cases hx : f x = j
      · have hne : j ≠ n := fun heq => h.1 (heq ▸ hj)
        simp [hx, hne]
      · simp [hx]
    rw [List.map_cons, List.sum_cons, hrest]
    have hsplit : xs.length = (xs.filter (fun x => f x == n)).length + (xs.filter (fun x => !(f x == n))).length :=
      (List.length_eq_length_filter_add _)
    rw [hsplit]
    exact Nat.add_le_add_left (ih h.2 _) _

/-- Of lists that each carry their own mark, those of one mark. -/
theorem filter_flatMap_marked {γ : Type} {mark : γ → α} {g : α → List γ} (hg : ∀ j, ∀ x ∈ g j, mark x = j) {ls : List α}
    (h : ls.Nodup) {n : α} (hn : n ∈ ls) : (ls.flatMap g).filter (fun x => mark x == n) = g n := by
  have hsame : ∀ j, (g j).filter (fun x => mark x == n) = if j = n then g j else [] := fun j => by
    split
    · next heq =>
      exact List.filter_eq_self.2 (fun x hx => by simp [hg j x hx, heq])
    · next hne =>
      exact List.filter_eq_nil_iff.2 (fun x hx => by simp [hg j x hx, hne])
  induction ls with
  | nil => exact absurd hn List.not_mem_nil
  | cons j ls ih =>
    rw [List.nodup_cons] at h
    rw [List.flatMap_cons, List.filter_append, hsame]
    by_cases hj : j = n
    · subst hj
      have hrest : (ls.flatMap g).filter (fun x => mark x == j) = [] := by
        refine List.filter_eq_nil_iff.2 (fun x hx => ?_)
        obtain ⟨i, hi, hxi⟩ := List.mem_flatMap.1 hx
        have hne : i ≠ j := fun heq => h.1 (heq ▸ hi)
        simp [hg i x hxi, hne]
      rw [if_pos rfl, hrest, List.append_nil]
    · rw [if_neg hj, List.nil_append]
      exact ih h.2 ((List.mem_cons.1 hn).resolve_left (Ne.symm hj))

/-! ## Resolution (Table 5-4) -/

section
variable {t : Vector Station 64} {v : Word} {k : StationNo}

theorem resolve_unknown (h : ∀ k : StationNo, t[k].valid = true → t[k].code.toNat ≠ v.toNat) : resolve t v = none := by
  unfold resolve
  rw [lowest_eq_none (fun k => by simpa using h k)]

section
variable (hv : t[k].valid = true) (hc : t[k].code.toNat = v.toNat)
variable (hj : ∀ j : StationNo, j < k → t[j].valid = true → t[j].code.toNat ≠ v.toNat)
include hv hc hj

theorem lowest_station : lowest (fun k : StationNo => t[k].valid && t[k].code.toNat == v.toNat) = some k :=
  lowest_eq_some (by rw [hv, hc, beq_self_eq_true]; rfl) (fun j h => by simpa using hj j h)

theorem resolve_inService (hs : t[k].service = .inService) : resolve t v = some k := by
  unfold resolve
  rw [lowest_station hv hc hj]
  dsimp only
  rw [hs]

theorem resolve_outOfService (hs : t[k].service = .outOfService) : resolve t v = none := by
  unfold resolve
  rw [lowest_station hv hc hj]
  dsimp only
  rw [hs]

theorem resolve_divertedAway (hs : t[k].service = .diverted) (hd : 64 ≤ t[k].divert.toNat) : resolve t v = none := by
  unfold resolve
  rw [lowest_station hv hc hj]
  dsimp only
  rw [hs]
  exact dif_neg (Nat.not_lt.2 hd)

theorem resolve_diverted {j : StationNo} (hs : t[k].service = .diverted) (hd : t[k].divert.toNat = j.val) :
    resolve t v = if t[j].service = .inService then some j else none := by
  have hlt : t[k].divert.toNat < 64 := hd ▸ j.isLt
  have hto : (⟨t[k].divert.toNat, hlt⟩ : StationNo) = j := Fin.ext hd
  unfold resolve
  rw [lowest_station hv hc hj]
  dsimp only
  rw [hs]
  exact (dif_pos hlt).trans (congrArg (fun i : StationNo => if t[i].service = .inService then some i else none) hto)

end

end

theorem stationLine_val {e : Station} (h : e.line.toNat < 24) : (stationLine e).val = e.line.toNat := by
  unfold stationLine
  rw [dif_pos h]

/-! ## The call sets of one line (R95) -/

section
variable {ms : List Member} (h : ms.length ≤ 8)
include h

theorem callSets_cases : (ms = [] ∧ callSets ms = [[]]) ∨ (ms ≠ [] ∧ ms.length ≤ 4 ∧ callSets ms = [ms]) ∨
    (4 < ms.length ∧ callSets ms = [ms.take 4, ms.drop 4]) := by
  cases ms with
  | nil => exact .inl ⟨rfl, rfl⟩
  | cons m ms =>
    by_cases hlen : (m :: ms).length ≤ 4
    · exact .inr (.inl ⟨List.cons_ne_nil _ _, hlen, if_pos hlen⟩)
    · exact .inr (.inr ⟨Nat.not_le.1 hlen, if_neg hlen⟩)

theorem callSets_length_le {c : List Member} (hc : c ∈ callSets ms) : c.length ≤ 4 := by
  rcases callSets_cases h with ⟨-, heq⟩ | ⟨-, hlen, heq⟩ | ⟨-, heq⟩ <;> rw [heq] at hc
  · simp [List.mem_singleton.1 hc]
  · rw [List.mem_singleton.1 hc]
    exact hlen
  · rcases List.mem_pair.1 hc with rfl | rfl
    · exact List.length_take_le _ _
    · rw [List.length_drop]
      omega

theorem callSets_flatten : (callSets ms).flatten = ms := by
  rcases callSets_cases h with ⟨hm, heq⟩ | ⟨-, -, heq⟩ | ⟨-, heq⟩ <;> rw [heq]
  · rw [hm]
    rfl
  · exact List.append_nil _
  · simp [List.take_append_drop]

theorem callSets_count : (callSets ms).length = max 1 ((ms.length + 3) / 4) := by
  rcases callSets_cases h with ⟨hm, heq⟩ | ⟨hm, hlen, heq⟩ | ⟨hlen, heq⟩ <;> rw [heq]
  · rw [hm]
    rfl
  · have hpos := List.length_pos_iff.2 hm
    simp only [List.length_singleton]
    omega
  · simp only [List.length_cons, List.length_nil]
    omega

theorem callSets_full {c : List Member} (hc : c ∈ (callSets ms).dropLast) : c.length = 4 := by
  rcases callSets_cases h with ⟨-, heq⟩ | ⟨-, -, heq⟩ | ⟨hlen, heq⟩ <;> rw [heq] at hc
  · exact absurd hc List.not_mem_nil
  · exact absurd hc List.not_mem_nil
  · rw [List.mem_singleton.1 hc, List.length_take]
    omega

end

/-! ## The plan (R93 to R95) -/

/-- The stations of line `n`, in order. -/
def stationsOn (s : State) (stations : List StationNo) (n : LineNo) : List StationNo :=
  stations.filter (fun k => stationLine s.router.active[k] == n)

/-- The members called on line `n`. -/
def membersOn (s : State) (stations : List StationNo) (n : LineNo) : List Member :=
  (stationsOn s stations n).filterMap (memberOf s.router.active)

section
variable {stations : List StationNo}

theorem planLine_pointToPoint (h : s.lines[n].active.type = .pointToPoint) : planLine s stations n = [⟨n, []⟩] := by
  unfold planLine
  rw [h]

theorem planLine_party (h : s.lines[n].active.type = .party) :
    planLine s stations n = (callSets (membersOn s stations n)).map (fun c => ⟨n, c⟩) := by
  unfold planLine
  rw [h]
  rfl

theorem planLine_line : ∀ p ∈ planLine s stations n, p.line = n := by
  intro p hp
  cases h : s.lines[n].active.type with
  | pointToPoint =>
    rw [planLine_pointToPoint h] at hp
    rw [List.mem_singleton.1 hp]
  | party =>
    rw [planLine_party h] at hp
    obtain ⟨c, -, rfl⟩ := List.mem_map.1 hp
    rfl

theorem membersOn_length_le : (membersOn s stations n).length ≤ (stationsOn s stations n).length := List.length_filterMap_le _ _

theorem stationsOn_length_le : (stationsOn s stations n).length ≤ stations.length := List.length_filter_le _ _

/-- A member is a station of the line with its call code. -/
theorem membersOn_spec {c : Member} (hc : c ∈ membersOn s stations n) : stationLine s.router.active[c.station] = n ∧
    s.router.active[c.station].callCode = some c.callCode ∧ s.router.active[c.station].confirm = c.confirm ∧
    c.answered = false := by
  obtain ⟨k, hk, hm⟩ := List.mem_filterMap.1 hc
  have hline : stationLine s.router.active[k] = n := by simpa [stationsOn] using (List.mem_filter.1 hk).2
  unfold memberOf at hm
  obtain ⟨code, hcode, rfl⟩ := Option.map_eq_some_iff.1 hm
  exact ⟨hline, hcode, rfl, rfl⟩

/-- The stations called are those with a call code, in order. -/
theorem membersOn_stations : (membersOn s stations n).map (fun c => c.station) =
    stations.filter (fun k => stationLine s.router.active[k] == n && s.router.active[k].callCode.isSome) := by
  have hmember : ∀ k, (memberOf s.router.active k).map (fun c => c.station) =
      Option.guard (fun k : StationNo => s.router.active[k].callCode.isSome) k := fun k => by
    unfold memberOf Option.guard
    cases hcode : s.router.active[k].callCode with
    | none =>
      simp only [Fin.getElem_fin] at hcode
      simp [hcode]
    | some c =>
      simp only [Fin.getElem_fin] at hcode
      simp [hcode]
  unfold membersOn stationsOn
  rw [List.map_filterMap, funext hmember, List.filterMap_eq_filter, List.filter_filter]
  exact List.filter_congr (fun k _ => Bool.and_comm _ _)

theorem planLine_length_le (h : stations.length ≤ 8) (hn : ∃ k ∈ stations, stationLine s.router.active[k] = n) :
    (planLine s stations n).length ≤ (stationsOn s stations n).length := by
  have hpos : 0 < (stationsOn s stations n).length := by
    obtain ⟨k, hk, hl⟩ := hn
    exact List.length_pos_of_mem (List.mem_filter.2 ⟨hk, beq_iff_eq.2 hl⟩)
  cases ht : s.lines[n].active.type with
  | pointToPoint =>
    rw [planLine_pointToPoint ht]
    exact hpos
  | party =>
    have hle := membersOn_length_le (s := s) (stations := stations) (n := n)
    rw [planLine_party ht, List.length_map, callSets_count (hle.trans (stationsOn_length_le.trans h))]
    omega

/-- The lines of the stations, without repetitions. -/
def planLines (s : State) (stations : List StationNo) : List LineNo :=
  dropDuplicates (stations.map (fun k => stationLine s.router.active[k]))

theorem mem_planLines : n ∈ planLines s stations ↔ ∃ k ∈ stations, stationLine s.router.active[k] = n :=
  mem_dropDuplicates.trans List.mem_map

theorem planStations_length_le (h : stations.length ≤ 8) : (planStations s stations).length ≤ 8 := by
  have hsum : (planStations s stations).length ≤
      ((planLines s stations).map (fun n => (stationsOn s stations n).length)).sum := by
    unfold planStations
    rw [List.length_flatMap]
    exact List.sum_le_sum (fun n hn => planLine_length_le h (mem_planLines.1 hn))
  exact hsum.trans ((sum_filter_le (dropDuplicates_nodup _) _).trans h)

theorem planStations_filter (hn : ∃ k ∈ stations, stationLine s.router.active[k] = n) :
    (planStations s stations).filter (fun p => p.line == n) = planLine s stations n :=
  filter_flatMap_marked (mark := fun p : Planned => p.line) (fun _ => planLine_line) (dropDuplicates_nodup _) (mem_planLines.2 hn)

end

/-- What a delivery of a plan holds. -/
theorem planLine_spec {stations : List StationNo} (h : stations.length ≤ 8) : ∀ p ∈ planLine s stations n, p.callSet.length ≤ 4 ∧
    (s.lines[n].active.type = .pointToPoint → p.callSet = []) ∧ ∀ c ∈ p.callSet, c ∈ membersOn s stations n := by
  intro p hp
  cases ht : s.lines[n].active.type with
  | pointToPoint =>
    rw [planLine_pointToPoint ht] at hp
    rw [List.mem_singleton.1 hp]
    exact ⟨Nat.zero_le _, fun _ => rfl, fun c hc => absurd hc List.not_mem_nil⟩
  | party =>
    have hle := membersOn_length_le.trans (stationsOn_length_le.trans h) (a := (membersOn s stations n).length)
    rw [planLine_party ht] at hp
    obtain ⟨c, hc, rfl⟩ := List.mem_map.1 hp
    refine ⟨callSets_length_le hle hc, fun hx => LineType.noConfusion hx, fun m hm => ?_⟩
    rw [← callSets_flatten hle]
    exact List.mem_flatten_of_mem hc hm

theorem routableStations_length_le (t : Vector Station 64) (dests : List Word) :
    (routableStations t dests).length ≤ dests.length :=
  (dropDuplicates_length_le _).trans (List.length_filterMap_le _ _)

theorem directedLines_length_le (dests : List Word) : (directedLines dests).length ≤ dests.length :=
  (dropDuplicates_length_le _).trans (List.length_filterMap_le _ _)

end Sys2Proof.Machine

/-! PROOFS. The statement about the delivery plan. -/

namespace Sys2Proof.Deliveries
open Sys2Proof.Machine

/-- Settles O36: Table 5-4, the deliveries of each line in turn, and the bounds of a plan. -/
theorem deliveryPlanBounds : Obligations.DeliveryPlanBounds := by
  refine ⟨fun s m hm => ?_, fun t v => ⟨resolve_unknown, fun k hv hc hj => ⟨resolve_inService hv hc hj, resolve_outOfService hv hc hj,
    resolve_divertedAway hv hc hj, fun j => resolve_diverted hv hc hj⟩⟩, fun e he => stationLine_val he,
    fun s m plan stations hm hdir hplan hst => ?_, fun s m hdir hdests => ?_⟩
  · by_cases hdir : m.directed = true
    · have hplan : deliveryPlan s m = (directedLines m.dests).map (fun n => ⟨n, []⟩) := if_pos hdir
      rw [hplan]
      refine ⟨by rw [List.length_map]; exact (directedLines_length_le _).trans hm, fun p hp => ?_⟩
      obtain ⟨n, -, rfl⟩ := List.mem_map.1 hp
      exact ⟨Nat.zero_le _, fun _ => rfl, fun c hc => absurd hc List.not_mem_nil⟩
    · have hplan : deliveryPlan s m = planStations s (routableStations s.router.active m.dests) := if_neg hdir
      have hlen := (routableStations_length_le s.router.active m.dests).trans hm
      rw [hplan]
      refine ⟨planStations_length_le hlen, fun p hp => ?_⟩
      obtain ⟨n, -, hpn⟩ := List.mem_flatMap.1 hp
      obtain ⟨hfour, hpoint, hmem⟩ := planLine_spec hlen p hpn
      obtain rfl := planLine_line p hpn
      exact ⟨hfour, fun h => hpoint (h.resolve_left hdir), fun c hc => membersOn_spec (hmem c hc)⟩
  · have hroutable : stations = routableStations s.router.active m.dests := hst.trans (eraseDups_eq _)
    have hplan' : plan = planStations s stations := by
      rw [hplan, hroutable]
      exact if_neg (by simp [hdir])
    have hlen : stations.length ≤ 8 := by
      rw [hroutable]
      exact (routableStations_length_le _ _).trans hm
    have hlines : (stations.map (fun k => stationLine s.router.active[k])).eraseDups = planLines s stations := eraseDups_eq _
    refine ⟨?_, fun n called hn hcalled => ⟨fun ht => ?_, fun ht => ?_⟩⟩
    · rw [hlines, hplan']
      exact (List.flatMap_congr (fun n hn => planStations_filter (mem_planLines.1 hn))).symm
    · rw [hplan', planStations_filter hn, planLine_pointToPoint ht]
    · have hms : (membersOn s stations n).map (fun c => c.station) = called := membersOn_stations.trans hcalled.symm
      have hlength : (membersOn s stations n).length = called.length := by rw [← hms, List.length_map]
      have hle : (membersOn s stations n).length ≤ 8 := membersOn_length_le.trans (stationsOn_length_le.trans hlen)
      rw [hplan', planStations_filter hn, planLine_party ht]
      refine ⟨?_, fun hnone => ?_, fun hsome => ⟨?_, fun p hp => ?_⟩⟩
      · rw [← hms, ← callSets_flatten hle, List.map_flatten, List.flatMap_map, callSets_flatten hle]
        rfl
      · have hempty : membersOn s stations n = [] := List.length_eq_zero_iff.1 (by rw [hlength, hnone]; rfl)
        rw [hempty]
        rfl
      · have hpos := List.length_pos_iff.2 hsome
        rw [List.length_map, callSets_count hle, hlength]
        omega
      · rw [← List.map_dropLast] at hp
        obtain ⟨c, hc, rfl⟩ := List.mem_map.1 hp
        exact callSets_full hle hc
  · have hplan : deliveryPlan s m = (directedLines m.dests).map (fun n => ⟨n, []⟩) := if_pos hdir
    have hvals : (m.dests.filterMap (fun v => if h : v.toNat < 24 then some (⟨v.toNat, h⟩ : LineNo) else none)).map Fin.val =
        m.dests.map (fun v => v.toNat) := by
      rw [List.map_filterMap, ← List.filterMap_eq_map]
      refine List.filterMap_congr (fun v hv => ?_)
      rw [dif_pos (hdests v hv)]
      rfl
    rw [hplan]
    refine ⟨?_, fun p hp => ?_⟩
    · rw [List.map_map, eraseDups_eq, ← hvals, dropDuplicates_map Fin.val_injective]
      rfl
    · obtain ⟨n, -, rfl⟩ := List.mem_map.1 hp
      rfl

end Sys2Proof.Deliveries

/-! SUPPORT. The latching event on every line. -/

namespace Sys2Proof.Machine

variable {s e u : State} {n m : LineNo}

/-! ## A silent line (R166) -/

/-- A transmitter in HELD or OFF with nothing in hand, nothing owed and nothing being sent. -/
structure Silent (t : Transmitter) : Prop where
  state : t.state = .held ∨ t.state = .off
  hand : t.hand = none
  sending : t.sending = none
  owed : t.owed = none
  send : t.send = true

theorem Silent.not_awake {t : Transmitter} (h : Silent t) : ¬ Awake t := by
  rintro (hh | hi)
  · exact hh h.hand
  · rcases h.state with hs | hs <;> exact TxState.noConfusion (hs.symm.trans hi)

theorem updRx_tx (f : Receiver → Receiver) : (updRx m f u).lines[n.val].tx = u.lines[n.val].tx := by
  by_cases hm : n = m
  · subst hm
    rw [updRx_line]
  · rw [updRx, updLine_lines_ne _ _ hm]

/-- A transfer of settings leaves of a transmitter all but its backoff. -/
theorem transferSettings_tx : ∃ (b : Bool) (c : Option Nat) (v : Bool), (transferSettings m u).lines[n.val].tx =
    { u.lines[n.val].tx with backingOff := b, backoffCount := c, backoffVoid := v } := by
  rw [transferSettings_eq]
  by_cases hm : n = m
  · subst hm
    rw [updLine_line]
    unfold transferredLine
    dsimp only
    split
    · exact ⟨_, _, _, rfl⟩
    · exact ⟨_, _, _, rfl⟩
  · rw [updLine_lines_ne _ _ hm]
    exact ⟨_, _, _, rfl⟩

/-- A silent line stays silent through whatever happens on the other lines. -/
theorem keptInside_silent (n : LineNo) : KeptInside (fun m => n ≠ m) (fun u => Silent u.lines[n.val].tx) where
  port h _ _ := h
  report h _ := h
  walker h _ := h
  pool h _ := h
  du h _ := h
  count h _ := h
  serial h _ := h
  rx h m f := by
    rw [updRx_tx]
    exact h
  transfer h m := by
    obtain ⟨b, c, v, htx⟩ := transferSettings_tx (n := n) (m := m)
    rw [htx]
    exact { h with }
  transmitter h _ hm f _ := by
    rw [updTx, updLine_lines_ne _ _ hm]
    exact h
  awake h m ha := fun heq => by
    subst heq
    exact h.not_awake ha
  line h _ hm f := by
    rw [updLine_lines_ne _ _ hm]
    exact h
  post h := h

/-- A line that is on stays on through the shared operations. -/
theorem keptCalm_on (n : LineNo) : KeptCalm (fun _ => True) (fun u => u.lines[n.val].tx.state ≠ .off) where
  port h _ _ := h
  report h _ := h
  walker h _ := h
  pool h _ := h
  du h _ := h
  count h _ := h
  serial h _ := h
  rx h m f := by
    rw [updRx_tx]
    exact h
  transfer h m := by
    obtain ⟨b, c, v, htx⟩ := transferSettings_tx (n := n) (m := m)
    rw [htx]
    exact h
  transmitter h m _ f hf := by
    by_cases hm : n = m
    · subst hm
      rw [updTx_line]
      exact fun hoff => h (hf _ hoff)
    · rw [updTx, updLine_lines_ne _ _ hm]
      exact h
  awake _ _ _ := trivial

/-- The machine is RUNNING out of reset with the latch set, and its store is `st`. -/
structure Latched (st : Memory) (u : State) : Prop where
  latch : u.office.holdLatch = true
  run : running u = true
  out : u.resetIn = false
  store : u.store = st

theorem keptInside_latched (st : Memory) : KeptInside (fun _ => True) (Latched st) where
  port h _ _ := { h with }
  report h _ := { h with }
  walker h _ := { h with }
  pool h _ := { h with }
  du h _ := { h with }
  count h _ := { h with }
  serial h _ := { h with }
  rx h _ _ := { h with }
  transfer h m := by
    rw [transferSettings_eq]
    exact { h with }
  transmitter h _ _ _ _ := { h with }
  awake _ _ _ := trivial
  line h _ _ _ := { h with }
  post h := { h with }

/-! ## The latching event on one line (R166) -/

theorem on_updLine {f : LineUnit → LineUnit} (hn : n ≠ m) (h : u.lines[n.val].tx.state ≠ .off) :
    (updLine m f u).lines[n.val].tx.state ≠ .off := by
  rw [updLine_lines_ne _ _ hn]
  exact h

theorem on_giveBackHand {r : Nat} (h : u.lines[n.val].tx.state ≠ .off) : (giveBackHand m r u).lines[n.val].tx.state ≠ .off := by
  unfold giveBackHand
  split
  · exact (keptCalm_on n).interruptEntry h _ _ _
  · exact h

theorem on_transmitterOff (hn : n ≠ m) (h : u.lines[n.val].tx.state ≠ .off) : (transmitterOff m u).lines[n.val].tx.state ≠ .off := by
  unfold transmitterOff
  exact (keptCalm_on n).leaveWaiting (on_updLine hn h) _

theorem on_receiverOff (hn : n ≠ m) (h : u.lines[n.val].tx.state ≠ .off) : (receiverOff m u).lines[n.val].tx.state ≠ .off := by
  have hchain : (if hasMessage u.lines[m].rx then abandonChain m u else u).lines[n.val].tx.state ≠ .off := by
    split
    · exact (keptCalm_on n).abandonChain h m
    · exact h
  unfold receiverOff
  exact on_updLine hn hchain

theorem on_stoppingAt (hn : n ≠ m) (h : u.lines[n.val].tx.state ≠ .off) : (stoppingAt m u).lines[n.val].tx.state ≠ .off := by
  show (updLine m (fun l => { l with tx := stoppingTx l.tx }) u).lines[n.val].tx.state ≠ .off
  exact on_updLine hn h

theorem on_disableTakesEffect (hn : n ≠ m) (h : u.lines[n.val].tx.state ≠ .off) :
    (disableTakesEffect m u).lines[n.val].tx.state ≠ .off := by
  unfold disableTakesEffect
  rw [goOff_eq]
  have hoff := on_transmitterOff hn (on_receiverOff hn (on_stoppingAt hn (on_giveBackHand (r := 1) (m := m) h)))
  exact (keptCalm_on n).checkIdlePoint hoff m

/-- The transmitter that is put in HELD. -/
def heldTx (t : Transmitter) : Transmitter := { t with state := .held, distantBreak := false, guardCount := none }

/-- Line `m` after what it was sending is abandoned and its delivery given back (R166). -/
def silencedAt (m : LineNo) (u : State) : State := updTx m clearedTx (dropHand m (giveBackHand m 6 (updTx m silentTx u)))

theorem latchLine_on (h : u.lines[m.val].tx.state ≠ .off) : latchLine m u =
    if (silencedAt m u).lines[m.val].tx.stopping then disableTakesEffect m (silencedAt m u) else updTx m heldTx (silencedAt m u) :=
  if_pos (enabled_iff.2 h)

theorem latchLine_off (h : u.lines[m.val].tx.state = .off) : latchLine m u = u :=
  if_neg (fun hen => enabled_iff.1 hen h)

theorem on_updTx {f : Transmitter → Transmitter} (hn : n ≠ m) (h : u.lines[n.val].tx.state ≠ .off) :
    (updTx m f u).lines[n.val].tx.state ≠ .off := on_updLine hn h

theorem on_silencedAt (hn : n ≠ m) (h : u.lines[n.val].tx.state ≠ .off) : (silencedAt m u).lines[n.val].tx.state ≠ .off := by
  unfold silencedAt
  have hback : (giveBackHand m 6 (updTx m silentTx u)).lines[n.val].tx.state ≠ .off := on_giveBackHand (on_updTx hn h)
  have hdrop : (dropHand m (giveBackHand m 6 (updTx m silentTx u))).lines[n.val].tx.state ≠ .off :=
    (keptCalm_on n).dropHand (n := m) trivial hback
  refine on_updTx hn ?_
  exact hdrop

theorem on_latchLine (hn : n ≠ m) (h : u.lines[n.val].tx.state ≠ .off) : (latchLine m u).lines[n.val].tx.state ≠ .off := by
  by_cases hoff : u.lines[m.val].tx.state = .off
  · rw [latchLine_off hoff]
    exact h
  · have hsilenced := on_silencedAt hn h
    rw [latchLine_on hoff]
    generalize silencedAt m u = v at hsilenced ⊢
    by_cases hs : v.lines[m.val].tx.stopping = true
    · rw [if_pos hs]
      exact on_disableTakesEffect (u := v) hn hsilenced
    · rw [if_neg hs]
      exact on_updTx (u := v) hn hsilenced

/-- An interruption changes no line. -/
theorem lines_pumpDelivery {ls : Vector LineUnit 24} (h : u.lines = ls) : (pumpDelivery u).lines = ls := by
  refine pump_keeps (P := fun u => u.lines = ls) (fun _ _ h => h) (fun u h => ?_) h
  unfold rewritePlaced
  split
  · exact h
  · dsimp only
    split <;> exact h

theorem lines_interruptEntry {d : DeliveryNo} {r : Nat} {b : Bool} : (interruptEntry d r b u).lines = u.lines := by
  unfold interruptEntry
  split
  · unfold cancelEntry freeEntry clearActive
    dsimp only
    rw [changeCount_eq]
    refine lines_pumpDelivery ?_
    dsimp only
    split <;> rfl
  · unfold reportInterrupted reportWithoutCount returnToHead clearActive
    dsimp only
    split <;> split <;> rfl

theorem lines_giveBackHand {r : Nat} : (giveBackHand m r u).lines = u.lines := by
  unfold giveBackHand
  split
  · exact lines_interruptEntry
  · rfl

theorem tx_transmitterOff (u : State) : (transmitterOff n u).lines[n.val].tx =
    { Transmitter.reset with stale := u.lines[n.val].tx.stale + u.lines[n.val].tx.live } := by
  unfold transmitterOff
  rw [leaveWaiting_port]
  dsimp only
  rw [updLine_line]

theorem silent_goOff (u : State) : Silent (goOff n u).lines[n.val].tx := by
  rw [goOff_eq, tx_transmitterOff]
  exact ⟨.inr rfl, rfl, rfl, rfl, rfl⟩

theorem silencedAt_tx : (silencedAt n u).lines[n.val].tx = clearedTx (droppedTx (silentTx u.lines[n.val].tx)) := by
  unfold silencedAt
  rw [updTx_dropHand]
  show (updTx n (fun t => clearedTx (droppedTx t)) (giveBackHand n 6 (updTx n silentTx u))).lines[n.val].tx = _
  rw [updTx_line, lines_giveBackHand, updTx_line]

/-- The latching event leaves a line that was on silent. -/
theorem silent_latchLine (h : u.lines[n.val].tx.state ≠ .off) : Silent (latchLine n u).lines[n.val].tx := by
  rw [latchLine_on h]
  split
  · exact (keptInside_silent n).checkIdlePoint (silent_goOff _) n
  · rw [updTx_line, silencedAt_tx]
    exact ⟨.inl rfl, rfl, rfl, rfl, rfl⟩

/-! ## The order of the lines (log 14) -/

theorem linesInOrder_perm (k : Nat) : (Config.linesInOrder k).Perm (List.finRange 24) := by
  unfold Config.linesInOrder
  split
  · next h => exact List.isPerm_iff.1 h
  · exact .refl _

/-- Each line is acted on once. -/
theorem linesInOrder_split (k : Nat) (n : LineNo) : ∃ front back, Config.linesInOrder k = front ++ n :: back ∧
    (∀ m ∈ front, n ≠ m) ∧ (∀ m ∈ back, n ≠ m) := by
  have hperm := linesInOrder_perm k
  obtain ⟨front, back, hlist⟩ := List.append_of_mem (hperm.mem_iff.2 (List.mem_finRange n))
  have hnodup : (front ++ n :: back).Nodup := hlist ▸ hperm.nodup_iff.2 (List.nodup_finRange 24)
  rw [List.nodup_append, List.nodup_cons] at hnodup
  obtain ⟨-, ⟨hback, -⟩, hfront⟩ := hnodup
  exact ⟨front, back, hlist, fun m hm heq => hfront m hm n (List.mem_cons_self ..) heq.symm, fun m hm heq => hback (heq ▸ hm)⟩

theorem foldl_keeps_of_mem {P : State → Prop} {f : State → LineNo → State} {l : List LineNo}
    (hf : ∀ (u : State) (m : LineNo), m ∈ l → P u → P (f u m)) (hu : P u) : P (l.foldl f u) := by
  induction l generalizing u with
  | nil => exact hu
  | cons m l ih =>
    exact ih (fun u k hk => hf u k (List.mem_cons_of_mem _ hk)) (hf u m (List.mem_cons_self ..) hu)

/-- After the latching event line `n` is silent. -/
theorem silent_latchLines (k : Nat) (h : u.lines[n.val].tx.state = .off → Silent u.lines[n.val].tx) :
    Silent ((Config.linesInOrder k).foldl (fun s m => latchLine m s) u).lines[n.val].tx := by
  obtain ⟨front, back, hlist, hfront, hback⟩ := linesInOrder_split k n
  have hsilent : ∀ {l : List LineNo} {v : State}, (∀ m ∈ l, n ≠ m) → Silent v.lines[n.val].tx →
      Silent (l.foldl (fun s m => latchLine m s) v).lines[n.val].tx := fun hl hv =>
    foldl_keeps_of_mem (P := fun v => Silent v.lines[n.val].tx) (fun w m hm hw => (keptInside_silent n).latchLine (hl m hm) hw) hv
  rw [hlist, List.foldl_append, List.foldl_cons]
  refine hsilent hback ?_
  by_cases hoff : u.lines[n.val].tx.state = .off
  · have hfronted := hsilent hfront (h hoff)
    by_cases hon : (front.foldl (fun s m => latchLine m s) u).lines[n.val].tx.state = .off
    · rw [latchLine_off hon]
      exact hfronted
    · exact silent_latchLine hon
  · exact silent_latchLine (foldl_keeps_of_mem (P := fun v => v.lines[n.val].tx.state ≠ .off)
      (fun w m hm hw => on_latchLine (hfront m hm) hw) hoff)

end Sys2Proof.Machine

/-! SUPPORT. The latching event with what the transmitters had in hand, and two reports of different owners at one event. -/

namespace Sys2Proof.Machine

variable {s e u : State} {n m : LineNo} {p q : StorePort}

/-! ## Issuers of lines leave the waiting list -/

/-- The port `q` is `p` after issuers of lines, and no other, have left the waiting list. -/
structure LinesLeft (p q : StorePort) : Prop where
  same : q = { p with waiting := q.waiting }
  sublist : q.waiting.Sublist p.waiting
  others : ∀ i ∈ p.waiting, (∀ m : LineNo, i ≠ .transmitter m ∧ i ≠ .receiver m) → i ∈ q.waiting

theorem LinesLeft.refl (p : StorePort) : LinesLeft p p := ⟨rfl, .refl _, fun _ h _ => h⟩

theorem LinesLeft.trans {r : StorePort} (h : LinesLeft p q) (h' : LinesLeft q r) : LinesLeft p r where
  same := by
    rw [h'.same, h.same]
  sublist := h'.sublist.trans h.sublist
  others i hi hm := h'.others i (h.others i hi hm) hm

theorem linesLeft_transmitter (m : LineNo) (p : StorePort) : LinesLeft p (leftPort (.transmitter m) p) where
  same := rfl
  sublist := List.filter_sublist
  others i hi hm := List.mem_filter.2 ⟨hi, by simpa using (hm m).1⟩

/-- With no issuer waiting none leaves. -/
theorem LinesLeft.eq_of_nil (h : LinesLeft p q) (hp : p.waiting = []) : q = p := by
  have hq : q.waiting = [] := List.sublist_nil.1 (hp ▸ h.sublist)
  rw [h.same, hq, ← hp]

/-! ## The latching event on one line -/

/-- What the rules demand of a stopping line here: no message and no settings pending. -/
def StopsPlainly (l : LineUnit) : Prop := l.tx.stopping = true → l.rx.state = .hunting ∧ l.settingsPending = false

/-- What is sent is abandoned and what was in hand is forgotten (R166). -/
def silencedTx (t : Transmitter) : Transmitter := clearedTx (droppedTx (silentTx t))

theorem silencedAt_eq {du : DeliveryUnit} {rep : ReportUnit}
    (h : giveBackHand m 6 (updTx m silentTx u) = { updTx m silentTx u with du := du, report := rep, port := p }) :
    silencedAt m u = { updTx m silencedTx u with du := du, report := rep, port := leftPort (.transmitter m) p } := by
  unfold silencedAt
  rw [h, updTx_dropHand]
  have htx : updTx m (fun t => clearedTx (droppedTx t)) (updTx m silentTx u) = updTx m silencedTx u :=
    updTx_updTx (fun t => clearedTx (droppedTx t)) silentTx u
  exact congrArg (fun x : State => { x with du := du, report := rep, port := leftPort (.transmitter m) p }) htx

/-- The line as R166 leaves it, whatever became of its delivery. -/
theorem latchLine_eq {du : DeliveryUnit} {rep : ReportUnit} (hon : u.lines[m.val].tx.state ≠ .off)
    (hstop : StopsPlainly u.lines[m.val])
    (h : giveBackHand m 6 (updTx m silentTx u) = { updTx m silentTx u with du := du, report := rep, port := p }) :
    ∃ q, LinesLeft p q ∧ latchLine m u = { updLine m latchedLine u with du := du, report := rep, port := q } := by
  have hline : (updTx m silencedTx u).lines[m.val] = { u.lines[m.val] with tx := silencedTx u.lines[m.val].tx } := updTx_line _ _
  rw [latchLine_on hon, silencedAt_eq h]
  show ∃ q, LinesLeft p q ∧ (if (updTx m silencedTx u).lines[m.val].tx.stopping then _ else _) = _
  rw [hline]
  by_cases hs : u.lines[m.val].tx.stopping = true
  · obtain ⟨hrx, hset⟩ := hstop hs
    have hoff : updLine m offLine (updTx m silencedTx u) = updLine m latchedLine u := by
      unfold updTx
      rw [updLine_updLine]
      refine updLine_congr ?_
      unfold latchedLine
      rw [if_neg hon, if_pos hs]
      rfl
    obtain ⟨q, hq⟩ : ∃ q, q = leftPort (.transmitter m) (leftPort (.transmitter m) (leftPort (.transmitter m) p)) := ⟨_, rfl⟩
    refine ⟨q, hq ▸ ((linesLeft_transmitter m p).trans (linesLeft_transmitter m _)).trans (linesLeft_transmitter m _), ?_⟩
    rw [if_pos (by exact hs), disableTakesEffect_plain (by
      show (updTx m silencedTx u).lines[m.val].tx.hand = none
      rw [hline]
      rfl) (by
      show hasMessage (updTx m silencedTx u).lines[m.val].rx = false
      rw [hline]
      exact hasMessage_hunting hrx) (by
      show (updTx m silencedTx u).lines[m.val].settingsPending = false
      rw [hline]
      exact hset)]
    refine Eq.trans ?_ (congrArg (fun x : State => { x with du := du, report := rep, port := q }) hoff)
    subst hq
    rfl
  · have hheld : updTx m heldTx (updTx m silencedTx u) = updLine m latchedLine u := by
      rw [updTx_updTx]
      refine updLine_congr ?_
      unfold latchedLine
      rw [if_neg hon, if_neg hs]
      rfl
    refine ⟨leftPort (.transmitter m) p, linesLeft_transmitter m p, ?_⟩
    rw [if_neg (by exact hs)]
    exact congrArg (fun x : State => { x with du := du, report := rep, port := leftPort (.transmitter m) p }) hheld

/-- A line with nothing in hand. -/
theorem latchLine_empty (hhand : u.lines[m.val].tx.hand = none) (hstop : StopsPlainly u.lines[m.val]) :
    ∃ q, LinesLeft u.port q ∧ latchLine m u = { updLine m latchedLine u with port := q } := by
  by_cases hoff : u.lines[m.val].tx.state = .off
  · refine ⟨u.port, .refl _, ?_⟩
    rw [latchLine_off hoff]
    exact (updLine_self (f := latchedLine) (if_pos hoff)).symm
  · refine latchLine_eq (du := u.du) (rep := u.report) hoff hstop ?_
    unfold giveBackHand
    rw [Fin.getElem_fin, updTx_line]
    show (match u.lines[m.val].tx.hand with | some _ => _ | none => _) = _
    rw [hhand]
    rfl

/-- Lines with nothing in hand, one after another. -/
theorem latchLines_empty (l : List LineNo) (hl : l.Nodup) (h : ∀ m ∈ l, u.lines[m.val].tx.hand = none ∧ StopsPlainly u.lines[m.val]) :
    ∃ (ls : Vector LineUnit 24) (q : StorePort), LinesLeft u.port q ∧
      l.foldl (fun s m => latchLine m s) u = { u with lines := ls, port := q } ∧
      ∀ m : LineNo, ls[m.val] = if m ∈ l then latchedLine u.lines[m.val] else u.lines[m.val] := by
  induction l generalizing u with
  | nil => exact ⟨u.lines, u.port, .refl _, rfl, fun m => by simp⟩
  | cons k l ih =>
    obtain ⟨hk, hl⟩ := List.nodup_cons.1 hl
    obtain ⟨q, hleft, hfirst⟩ := latchLine_empty (h k (List.mem_cons_self ..)).1 (h k (List.mem_cons_self ..)).2
    have hrest : ∀ m, m ≠ k → (updLine k latchedLine u).lines[m.val] = u.lines[m.val] := fun m hm => updLine_lines_ne _ _ hm
    obtain ⟨ls, q', hleft', hfold, hls⟩ := ih (u := { updLine k latchedLine u with port := q }) hl fun m hm => by
      have hne : m ≠ k := fun heq => hk (heq ▸ hm)
      rw [show ({ updLine k latchedLine u with port := q } : State).lines = (updLine k latchedLine u).lines from rfl, hrest m hne]
      exact h m (List.mem_cons_of_mem _ hm)
    refine ⟨ls, q', hleft.trans hleft', ?_, fun m => ?_⟩
    · rw [List.foldl_cons, hfirst, hfold]
      rfl
    · rw [hls m]
      by_cases hm : m = k
      · subst hm
        simp [hk]
      · simp [hm, hrest m hm]

/-- Nothing is in hand anywhere. -/
theorem latchLines_allEmpty (k : Nat) (h : ∀ m : LineNo, u.lines[m.val].tx.hand = none ∧ StopsPlainly u.lines[m.val]) :
    ∃ q, (Config.linesInOrder k).foldl (fun s m => latchLine m s) u = { u with lines := u.lines.map latchedLine, port := q } := by
  have hperm := linesInOrder_perm k
  obtain ⟨ls, q, -, hfold, hls⟩ := latchLines_empty (u := u) (Config.linesInOrder k) (hperm.nodup_iff.2 (List.nodup_finRange 24))
    (fun m _ => h m)
  have hmap : ls = u.lines.map latchedLine := by
    refine Vector.ext fun i hi => ?_
    rw [Vector.getElem_map]
    exact (hls ⟨i, hi⟩).trans (if_pos (hperm.mem_iff.2 (List.mem_finRange _)))
  exact ⟨q, by rw [hfold, hmap]⟩

/-- A delivery is in hand on line `n` alone. -/
theorem latchLines_handed {du : DeliveryUnit} {rep : ReportUnit} (k : Nat) (hon : u.lines[n.val].tx.state ≠ .off)
    (hother : ∀ m : LineNo, m ≠ n → u.lines[m.val].tx.hand = none) (hstop : ∀ m : LineNo, StopsPlainly u.lines[m.val])
    (hback : ∀ (v : State) (q : StorePort), LinesLeft u.port q → v.lines[n.val] = u.lines[n.val] →
      v = { u with lines := v.lines, port := q } → ∃ p, (u.port.waiting = [] → p = u.port) ∧
        giveBackHand n 6 (updTx n silentTx v) = { updTx n silentTx v with du := du, report := rep, port := p }) :
    ∃ q, (u.port.waiting = [] → q = u.port) ∧ (Config.linesInOrder k).foldl (fun s m => latchLine m s) u =
      { u with lines := u.lines.map latchedLine, du := du, report := rep, port := q } := by
  obtain ⟨front, back, hlist, hfront, hbackNe⟩ := linesInOrder_split k n
  have hperm := linesInOrder_perm k
  have hnodup : (front ++ n :: back).Nodup := hlist ▸ hperm.nodup_iff.2 (List.nodup_finRange 24)
  rw [List.nodup_append, List.nodup_cons] at hnodup
  obtain ⟨hnfront, ⟨-, hnback⟩, hdisjoint⟩ := hnodup
  obtain ⟨ls, q, hleft, hfold, hls⟩ := latchLines_empty (u := u) front hnfront fun m hm => ⟨hother m (hfront m hm).symm, hstop m⟩
  have hn : ls[n.val] = u.lines[n.val] := (hls n).trans (if_neg fun hmem => hfront n hmem rfl)
  obtain ⟨v, hv⟩ : ∃ v : State, v = { u with lines := ls, port := q } := ⟨_, rfl⟩
  have hvlines : v.lines = ls := by rw [hv]
  have hvn : v.lines[n.val] = u.lines[n.val] := by
    simp only [hvlines, hn]
  obtain ⟨p, hp, hgiven⟩ := hback v q hleft hvn (by rw [hv])
  obtain ⟨q1, hleft1, hmid⟩ := latchLine_eq (by rw [hvn]; exact hon) (by rw [hvn]; exact hstop n) hgiven
  obtain ⟨w, hw⟩ : ∃ w : State, w = { updLine n latchedLine v with du := du, report := rep, port := q1 } := ⟨_, rfl⟩
  have hwn : w.lines[n.val] = latchedLine u.lines[n.val] := by
    rw [hw]
    exact (updLine_line latchedLine v).trans (congrArg latchedLine hvn)
  have hwne : ∀ m, m ≠ n → w.lines[m.val] = ls[m.val] := fun m hm => by
    rw [hw]
    exact (updLine_lines_ne _ _ hm).trans (by simp only [hvlines])
  have hlater : ∀ m ∈ back, w.lines[m.val] = u.lines[m.val] := fun m hm => by
    rw [hwne m (hbackNe m hm).symm, hls m, if_neg fun hmem => hdisjoint m hmem m (List.mem_cons_of_mem _ hm) rfl]
  obtain ⟨ls', q2, hleft2, hfold', hls'⟩ := latchLines_empty (u := w) back hnback fun m hm => by
    rw [hlater m hm]
    exact ⟨hother m (hbackNe m hm).symm, hstop m⟩
  have hmap : ls' = u.lines.map latchedLine := by
    refine Vector.ext fun i hi => ?_
    obtain ⟨m, hm⟩ : ∃ m : LineNo, m = ⟨i, hi⟩ := ⟨_, rfl⟩
    rw [Vector.getElem_map]
    have hcases : m ∈ front ++ n :: back := hlist ▸ hperm.mem_iff.2 (List.mem_finRange m)
    have hgoal : ls'[m.val] = latchedLine u.lines[m.val] := by
      rw [hls' m]
      rcases List.mem_append.1 hcases with hf | hnb
      · rw [if_neg fun hb => hdisjoint m hf m (List.mem_cons_of_mem _ hb) rfl, hwne m (hfront m hf).symm, hls m, if_pos hf]
      · rcases List.mem_cons.1 hnb with rfl | hb
        · rw [if_neg fun hb => hbackNe m hb rfl, hwn]
        · rw [if_pos hb, hlater m hb]
    subst hm
    exact hgoal
  refine ⟨q2, fun hnil => ?_, ?_⟩
  · have hq1 : q1 = u.port := (hleft1.eq_of_nil ((hp hnil).symm ▸ hnil)).trans (hp hnil)
    have hq2 : q2 = w.port := hleft2.eq_of_nil (by rw [hw]; exact hq1.symm ▸ hnil)
    rw [hq2, hw]
    exact hq1
  · rw [hlist, List.foldl_append, List.foldl_cons, hfold, ← hv, hmid, ← hw, hfold', hmap, hw, hv]
    rfl


/-! ## Two reports of different owners at one event (R182, log 49) -/

/-- An offer that waited on nothing. -/
def freeOffer (r : Record) : Offer := { record := r, attached := false, ending := none }

/-- The machine `e` with the Store Port `p` and two offers. -/
def offeringTwo (r r' : Record) (p : StorePort) (e : State) : State :=
  { e with port := p, report := { e.report with offers := [freeOffer r, freeOffer r'] } }

/-- The machine `e` with two records more accepted, one after the other. -/
def acceptedTwo (a b : Record) (p : StorePort) (e : State) : State :=
  { e with
    freeCount := e.freeCount + 1
    port := placedAll (reportWords e (e.report.fill + 1) b) (placedAll (reportWords e e.report.fill a) p)
    report := { e.report with fill := e.report.fill + 1 + 1 } }

theorem arrangeOffers_two {x y : Offer} (k : Nat) : arrangeOffers k [x, y] = [x, y] ∨ arrangeOffers k [x, y] = [y, x] := by
  obtain ⟨order, horder, harrange, -⟩ := arrangeOffers_order k [x, y]
  have hperm : order.Perm [0, 1] := horder.perm
  obtain ⟨i, j, rfl⟩ := List.length_eq_two.1 hperm.length_eq
  have hi := List.mem_pair.1 (hperm.mem_iff.1 (List.mem_cons_self (a := i)))
  have hj := List.mem_pair.1 (hperm.mem_iff.1 (List.mem_cons_of_mem i (List.mem_cons_self (a := j))))
  have hne : i ≠ j := by
    have hnodup : [i, j].Nodup := hperm.nodup_iff.2 (by decide)
    simpa using hnodup
  rw [harrange]
  rcases hi with rfl | rfl <;> rcases hj with rfl | rfl
  · exact absurd rfl hne
  · exact .inl rfl
  · exact .inr rfl
  · exact absurd rfl hne

theorem heldCount_succ (s : State) (f : Word) (hf : f = s.report.fill + 1) :
    (f - s.report.read).toNat ≤ heldCount s + 1 := by
  subst hf
  unfold heldCount
  bv_omega

theorem takeReport_two {a b : Record} (hr : RingRoom 2 e) (hp : PortRoom 8 p) :
    takeReport b (takeReport a { e with freeCount := e.freeCount + 1, port := p }) = acceptedTwo a b p e := by
  have hwords : (reportWords e e.report.fill a).length = 4 := by simp [reportWords]
  obtain ⟨hrec, hnext, hheld⟩ := hr
  rw [takeReport_room (s := { e with freeCount := e.freeCount + 1, port := p })
    ⟨hrec, hnext, Nat.le_trans (Nat.add_le_add_left (by decide) _) hheld⟩ (hp.mono (by decide))]
  have hroom : PortRoom 4 (placedAll (reportWords e e.report.fill a) p) := PortRoom.placedAll (by rw [hwords]; exact hp)
  have hsucc := heldCount_succ e _ rfl
  obtain ⟨v, hv⟩ : ∃ v : State, v = { e with
    freeCount := e.freeCount + 1, port := placedAll (reportWords e e.report.fill a) p
    report := { e.report with fill := e.report.fill + 1 } } := ⟨_, rfl⟩
  have hring : RingRoom 1 v := by
    rw [hv]
    exact ⟨hrec, hnext, Nat.le_trans (Nat.add_le_add_right hsucc 1) hheld⟩
  have hsecond := takeReport_room (r := b) hring (by rw [hv]; exact hroom)
  rw [hv] at hsecond
  exact hsecond

/-- Both are taken at the end of the event, in either order. -/
theorem settle_offeringTwo {r r' : Record} (hne : r.owner ≠ r'.owner) (h : Quiet e) (hr : RingRoom 2 e) (hp : PortRoom 8 p) :
    ∃ a b, [a, b].Perm [r, r'] ∧ settle (offeringTwo r r' p e) = eventEnd (acceptedTwo a b p e) := by
  have hone : oneOwner [freeOffer r, freeOffer r'] = false := by simp [oneOwner, freeOffer, hne.symm]
  have htake : ∀ a b, arrangeOffers e.freeCount [freeOffer r, freeOffer r'] = [freeOffer a, freeOffer b] →
      settle (offeringTwo r r' p e) = eventEnd (acceptedTwo a b p e) := fun a b hab => by
    have hbody : takeOffers (offeringTwo r r' p e) =
        takeReport b (takeReport a { e with freeCount := e.freeCount + 1, port := p }) := by
      unfold takeOffers takeUntil
      have hoffers : (offeringTwo r r' p e).report.offers = [freeOffer r, freeOffer r'] := rfl
      have hcount : (offeringTwo r r' p e).freeCount = e.freeCount := rfl
      dsimp only
      rw [hoffers, hcount, hab, offersUntil_all, if_pos (by rfl), hone]
      show takeReport b (takeReport a { e with
        freeCount := e.freeCount + 1, port := p, report := { e.report with offers := [] } }) = _
      rw [← h.2.2]
    unfold settle
    rw [if_neg (by rw [show (offeringTwo r r' p e).resetIn = e.resetIn from rfl, h.1]; exact Bool.false_ne_true),
      runWalker_quiet _ (by exact h.2.1), hbody, takeReport_two hr hp]
    rfl
  rcases arrangeOffers_two (x := freeOffer r) (y := freeOffer r') e.freeCount with hab | hab
  · exact ⟨r, r', .refl _, htake _ _ hab⟩
  · exact ⟨r', r, .swap .., htake _ _ hab⟩

/-- What such an event leaves. -/
theorem eventEnd_acceptedTwo (a b : Record) (p : StorePort) (e : State) :
    SamePart { e with freeCount := e.freeCount + 1 } (eventEnd (acceptedTwo a b p e)) ∧
      (eventEnd (acceptedTwo a b p e)).report.fill = e.report.fill + 2 ∧
      requests (eventEnd (acceptedTwo a b p e)) =
        portRequests p ++ reportWords e e.report.fill a ++ reportWords e (e.report.fill + 1) b := by
  refine ⟨?_, ?_, ?_⟩
  · have hpart : SamePart (acceptedTwo a b p e) (eventEnd (acceptedTwo a b p e)) := samePart_eventEnd _
    exact congrArg (fun x : State => { x with port := e.port, report := e.report }) hpart
  · rw [eventEnd_eq]
    exact BitVec.add_assoc ..
  · refine (requests_eventEnd _).trans ?_
    show portRequests (placedAll _ (placedAll _ p)) = _
    rw [portRequests_placedAll, portRequests_placedAll]

end Sys2Proof.Machine

/-! SUPPORT. The latching event as a whole. -/

namespace Sys2Proof.Machine

variable {s e u : State} {n m : LineNo} {h : Hand}

/-- The latch is set and HOLD LATCHED is on offer. -/
def latchingAt (s : State) : State :=
  offerReport (plainReport .holdLatched 31 65535 0 s.office.clock)
    { s with
      pins := { s.pins with hold := true }
      office := { s.office with holdLatch := true }
      freeCount := s.freeCount + 1 }

theorem exec_holdLatching (hr : s.resetIn = false) (hrun : running s = true) (hl : s.office.holdLatch = false) :
    exec .holdLatching s =
      .next (settle ((Config.linesInOrder s.freeCount).foldl (fun s m => latchLine m s) (latchingAt s))) := by
  have hbody : assertHold s = (Config.linesInOrder s.freeCount).foldl (fun s m => latchLine m s) (latchingAt s) := by
    unfold assertHold latchHold
    rw [if_neg (by simp [hr, hl]), if_pos (by exact hrun)]
    rfl
  exact congrArg (fun u => Host.Outcome.next (settle u)) hbody

theorem giveBackHand_hand {v : State} {r : Nat} (hh : v.lines[n.val].tx.hand = some h) :
    giveBackHand n r (updTx n silentTx v) = interruptEntry h.number r v.lines[n.val].tx.textBegun (updTx n silentTx v) := by
  unfold giveBackHand
  rw [Fin.getElem_fin, updTx_line]
  show (match v.lines[n.val].tx.hand with | some _ => _ | none => _) = _
  rw [hh]
  rfl

/-- The machine as the latching event leaves it, but for the Delivery Unit, the Store Port and the Report Unit. -/
def latchedAll (s : State) : State :=
  { s with
    pins := { s.pins with hold := true }
    office := { s.office with holdLatch := true }
    freeCount := s.freeCount + 1
    lines := s.lines.map latchedLine }

/-- The delivery in hand goes back to the head of its queue (R110). -/
theorem latchLines_interrupts (hon : s.lines[n.val].tx.state ≠ .off) (hh : s.lines[n.val].tx.hand = some h)
    (hother : ∀ m : LineNo, m ≠ n → s.lines[m.val].tx.hand = none) (hstop : ∀ m : LineNo, StopsPlainly s.lines[m.val])
    (hline : s.du.entries[h.number].line = n) (hactive : s.du.active[n] = some h.number)
    (hc : s.du.entries[h.number].cancelPending = false) (hrw : s.du.rewrites = []) (ho : s.report.offers = []) :
    ∃ q, (s.port.waiting = [] → q = s.port) ∧
      (Config.linesInOrder s.freeCount).foldl (fun s m => latchLine m s) (latchingAt s) =
        offeringTwo (plainReport .holdLatched 31 65535 0 s.office.clock)
          (plainReport .deliveryInterrupted n.val (BitVec.ofNat 16 h.number.val) 6 s.office.clock) q
          { latchedAll s with du := interruptedDelivery s n h.number s.lines[n.val].tx.textBegun } := by
  obtain ⟨d, hd⟩ : ∃ d, d = interruptedDelivery s n h.number s.lines[n.val].tx.textBegun := ⟨_, rfl⟩
  obtain ⟨rep, hrep⟩ : ∃ rep : ReportUnit, rep = { s.report with offers :=
    [freeOffer (plainReport .holdLatched 31 65535 0 s.office.clock),
      freeOffer (plainReport .deliveryInterrupted n.val (BitVec.ofNat 16 h.number.val) 6 s.office.clock)] } := ⟨_, rfl⟩
  obtain ⟨q, hq, hfold⟩ := latchLines_handed (u := latchingAt s) (du := d) (rep := rep) s.freeCount hon hother hstop
    fun v q hleft hvn hv => by
      refine ⟨q, hleft.eq_of_nil, ?_⟩
      have hvh : v.lines[n.val].tx.hand = some h := (congrArg (fun l : LineUnit => l.tx.hand) hvn).trans hh
      have hbegun : v.lines[n.val].tx.textBegun = s.lines[n.val].tx.textBegun := congrArg (fun l : LineUnit => l.tx.textBegun) hvn
      have hdu : v.du = s.du := (congrArg State.du hv :)
      have hclock : v.office.clock = s.office.clock := (congrArg (fun u : State => u.office.clock) hv :)
      rw [giveBackHand_hand hvh, hbegun, interruptEntry_plain (n := n) (by
        show v.du.entries[h.number].cancelPending = false
        rw [hdu]; exact hc) (by
        show v.du.entries[h.number].line = n
        rw [hdu]; exact hline) (by
        show v.du.active[n] = some h.number
        rw [hdu]; exact hactive) (by
        show v.du.rewrites = []
        rw [hdu]; exact hrw)]
      obtain ⟨ls, hls⟩ : ∃ ls, ls = v.lines := ⟨_, rfl⟩
      rw [← hls] at hv
      subst hv
      have hoffers : s.report.offers ++ [freeOffer (plainReport .holdLatched 31 65535 0 s.office.clock)] ++
          [freeOffer (plainReport .deliveryInterrupted n.val (BitVec.ofNat 16 h.number.val) 6 s.office.clock)] =
          rep.offers := by
        rw [ho, hrep]
        rfl
      have hreport : rep = { s.report with offers := rep.offers } := by rw [hrep]
      rw [hreport, ← hoffers, hd]
      rfl
  refine ⟨q, hq, hfold.trans ?_⟩
  rw [hd, hrep]
  rfl

/-- The delivery in hand is freed as a cancel (R110). -/
theorem latchLines_cancels {count : Nat} (hon : s.lines[n.val].tx.state ≠ .off) (hh : s.lines[n.val].tx.hand = some h)
    (hother : ∀ m : LineNo, m ≠ n → s.lines[m.val].tx.hand = none) (hstop : ∀ m : LineNo, StopsPlainly s.lines[m.val])
    (hline : s.du.entries[h.number].line = n) (hactive : s.du.active[n] = some h.number)
    (hc : s.du.entries[h.number].cancelPending = true)
    (hw : ∃ i ∈ s.port.waiting, ∀ m : LineNo, i ≠ .transmitter m ∧ i ≠ .receiver m)
    (hk : s.du.transit[s.du.entries[h.number].transit].outstanding = count + 1) :
    ∃ q, (Config.linesInOrder s.freeCount).foldl (fun s m => latchLine m s) (latchingAt s) =
        offerReport (plainReport .holdLatched 31 65535 0 s.office.clock)
          { latchedAll s with
            port := q
            du := freedDelivery s n h.number count [plainReport .deliveryCancelled n.val
              (BitVec.ofNat 16 h.number.val) (BitVec.ofNat 16 s.du.entries[h.number].transit.val) s.office.clock] } := by
  obtain ⟨i, hi, hissuer⟩ := hw
  obtain ⟨d, hd⟩ : ∃ d, d = freedDelivery s n h.number count [plainReport .deliveryCancelled n.val
    (BitVec.ofNat 16 h.number.val) (BitVec.ofNat 16 s.du.entries[h.number].transit.val) s.office.clock] := ⟨_, rfl⟩
  obtain ⟨q, -, hfold⟩ := latchLines_handed (u := latchingAt s) (du := d) (rep := (latchingAt s).report) s.freeCount hon hother hstop
    fun v q hleft hvn hv => by
      have hwaits : q.waiting ≠ [] := List.ne_nil_of_mem (hleft.others i hi hissuer)
      refine ⟨waitingPort .delivery q, fun hnil => absurd (hnil ▸ hi) List.not_mem_nil, ?_⟩
      have hvh : v.lines[n.val].tx.hand = some h := (congrArg (fun l : LineUnit => l.tx.hand) hvn).trans hh
      obtain ⟨ls, hls⟩ : ∃ ls, ls = v.lines := ⟨_, rfl⟩
      rw [← hls] at hv
      subst hv
      rw [giveBackHand_hand hvh]
      unfold interruptEntry
      rw [if_pos (by exact hc)]
      unfold cancelEntry
      rw [deliveryRecord_eq (n := n) (by exact hline), freeEntry_waits (n := n) (count := count) (by exact hline) (by exact hactive)
        (by exact Nat.sub_eq_of_eq_add hk) (by exact hwaits), hd]
      rfl
  exact ⟨q, hfold.trans (by rw [hd]; rfl)⟩

/-- Nothing is in hand. -/
theorem latchLines_plain (hnone : ∀ m : LineNo, s.lines[m.val].tx.hand = none) (hstop : ∀ m : LineNo, StopsPlainly s.lines[m.val]) :
    ∃ q, (Config.linesInOrder s.freeCount).foldl (fun s m => latchLine m s) (latchingAt s) =
        offerReport (plainReport .holdLatched 31 65535 0 s.office.clock) { latchedAll s with port := q } := by
  obtain ⟨q, hfold⟩ := latchLines_allEmpty (u := latchingAt s) s.freeCount fun m => ⟨hnone m, hstop m⟩
  exact ⟨q, hfold⟩

/-- HOLD LATCHED and DELIVERY INTERRUPTED in either order (R167, R182). -/
theorem holdLatching_interrupts (hq : Quiet s) (hrun : running s = true) (hl : s.office.holdLatch = false)
    (hon : s.lines[n.val].tx.state ≠ .off) (hh : s.lines[n.val].tx.hand = some h)
    (hother : ∀ m : LineNo, m ≠ n → s.lines[m.val].tx.hand = none) (hstop : ∀ m : LineNo, StopsPlainly s.lines[m.val])
    (hline : s.du.entries[h.number].line = n) (hactive : s.du.active[n] = some h.number)
    (hc : s.du.entries[h.number].cancelPending = false) (hrw : s.du.rewrites = []) (hroom : Room 8 s) (hring : RingRoom 2 s) :
    ∃ t, exec .holdLatching s = .next t ∧
      SamePart { latchedAll s with
        freeCount := s.freeCount + 2, du := interruptedDelivery s n h.number s.lines[n.val].tx.textBegun } t ∧
      t.report.fill = s.report.fill + 2 ∧
      ∃ r1 r2, [r1, r2].Perm [plainReport .holdLatched 31 65535 0 s.office.clock,
          plainReport .deliveryInterrupted n.val (BitVec.ofNat 16 h.number.val) 6 s.office.clock] ∧
        requests t = requests s ++ reportWords s s.report.fill r1 ++ reportWords s (s.report.fill + 1) r2 := by
  obtain ⟨q, hport, hfold⟩ := latchLines_interrupts hon hh hother hstop hline hactive hc hrw hq.2.2
  obtain ⟨d, hd⟩ : ∃ d, d = interruptedDelivery s n h.number s.lines[n.val].tx.textBegun := ⟨_, rfl⟩
  have hexec := exec_holdLatching hq.1 hrun hl
  rw [hfold, ← hd, hport hroom.1] at hexec
  rw [← hd]
  obtain ⟨a, b, hperm, hsettle⟩ := settle_offeringTwo (e := { latchedAll s with du := d }) (p := s.port)
    (r := plainReport .holdLatched 31 65535 0 s.office.clock)
    (r' := plainReport .deliveryInterrupted n.val (BitVec.ofNat 16 h.number.val) 6 s.office.clock)
    (fun ho => Owner.noConfusion ho) hq hring hroom
  rw [hsettle] at hexec
  obtain ⟨hpart, hfill, hrequests⟩ := eventEnd_acceptedTwo a b s.port { latchedAll s with du := d }
  exact ⟨_, hexec, hpart, hfill, a, b, hperm, hrequests⟩

end Sys2Proof.Machine

/-! PROOFS. The statement about the latching event while RUNNING. -/

namespace Sys2Proof.LineWords
open Sys2Proof.Machine

/-- Settles O56: every line silent, and the delivery of one line given back or freed. -/
theorem holdStopsEveryLine : Obligations.HoldStopsEveryLine := by
  refine ⟨fun s hr hrun hl hoff => ?_, fun s e hq hrun hl hstop he => ?_⟩
  · simp only [Fin.getElem_fin] at *
    refine ⟨_, exec_holdLatching hr hrun hl, ?_⟩
    obtain ⟨v, hv⟩ : ∃ v, v = (Config.linesInOrder s.freeCount).foldl (fun s m => latchLine m s) (latchingAt s) := ⟨_, rfl⟩
    rw [← hv]
    have hlatched : Latched s.store (settle v) := by
      rw [hv]
      refine (keptInside_latched s.store).settle (foldl_keeps_of_mem (P := Latched s.store)
        (fun w m _ hw => (keptInside_latched s.store).latchLine trivial hw) ?_)
      exact ⟨rfl, hrun, hr, rfl⟩
    have hsilent : ∀ n : LineNo, Silent (settle v).lines[n.val].tx := fun n => by
      refine (keptInside_silent n).settle ?_
      rw [hv]
      refine silent_latchLines _ fun hs => ?_
      obtain ⟨hhand, hsend, howed, hlevel⟩ := hoff n hs
      exact ⟨.inr hs, hhand, hsend, howed, hlevel⟩
    refine ⟨hlatched.latch, ?_, hlatched.store, fun n => ?_⟩
    · rw [settle_attn, attnCondition, hlatched.out, hlatched.run, hlatched.latch]
      simp
    · obtain ⟨hstate, hhand, hsend, howed, hlevel⟩ := hsilent n
      exact ⟨hstate, hhand, hsend, howed, hlevel⟩
  · have hquiet : Quiet e := by
      rw [he]
      exact hq
    have hall : e = latchedAll s := he
    simp only [Fin.getElem_fin] at *
    have hexec := exec_holdLatching hq.1 hrun hl
    refine ⟨fun hnone => ?_, fun n h hon hh hother hline hactive => ⟨fun hc hrw hroom hring => ?_, fun count hc hw hk => ?_⟩⟩
    · obtain ⟨q, hfold⟩ := latchLines_plain hnone hstop
      rw [hfold, ← hall] at hexec
      exact ⟨_, hexec, offers_settle _ hquiet⟩
    · rw [hall]
      exact holdLatching_interrupts hq hrun hl hon hh hother hstop hline hactive hc hrw hroom hring
    · rw [hall]
      obtain ⟨q, hfold⟩ := latchLines_cancels hon hh hother hstop hline hactive hc hw hk
      rw [hfold] at hexec
      exact ⟨_, hexec, offers_settle _ (by exact hq)⟩

end Sys2Proof.LineWords

/-! SUPPORT. What the walks that begin as an event ends leave untouched, where the receivers they give a block to hand no
message to the Router. -/

namespace Sys2Proof.Machine

variable {s e u : State} {n m : LineNo} {A : LineNo → Prop}

/-! ## What no walk touches -/

/-- The store, the Router, every transmitter and the Delivery Unit but for its rewrites and the states of its transit
entries are in `u` as in `e`. -/
structure Untouched (e u : State) : Prop where
  store : u.store = e.store
  router : u.router = e.router
  tx : ∀ m : LineNo, u.lines[m.val].tx = e.lines[m.val].tx
  entries : u.du.entries = e.du.entries
  active : u.du.active = e.du.active
  queues : u.du.queues = e.du.queues
  outstanding : ∀ k : TransitNo, u.du.transit[k.val].outstanding = e.du.transit[k.val].outstanding

theorem Untouched.refl (e : State) : Untouched e e := ⟨rfl, rfl, fun _ => rfl, rfl, rfl, rfl, fun _ => rfl⟩

theorem keptWork_untouched (e : State) : KeptWork (Untouched e) where
  port h _ _ := { h with }
  report h _ := { h with }
  walker h _ := { h with }
  count h _ := { h with }

/-- A receiver in CLOSING closes an incomplete message, and no settings wait. -/
def Apart (l : LineUnit) : Prop := l.rx.state = .closing → l.rx.asm.incomplete = true ∧ l.settingsPending = false

/-- The receivers that a walk may give a block to are among those of `A`, and those are apart. -/
structure WalksOn (A : LineNo → Prop) (e u : State) : Prop extends Untouched e u where
  starved : ∀ m ∈ u.pool.starved, A m
  apart : ∀ m : LineNo, A m → Apart u.lines[m.val]

theorem keptWork_walksOn (A : LineNo → Prop) (e : State) : KeptWork (WalksOn A e) where
  port h _ _ := { h with }
  report h _ := { h with }
  walker h _ := { h with }
  count h _ := { h with }

namespace WalksOn

/-! ## The Pool Unit and the Delivery Unit -/

theorem pool (h : WalksOn A e u) {p : PoolUnit} (hp : ∀ m ∈ p.starved, A m) : WalksOn A e { u with pool := p } :=
  { h with starved := hp }

theorem joinFree (h : WalksOn A e u) (b : Nat) : WalksOn A e (joinFree b u) := by
  unfold Machine.joinFree
  dsimp only
  have hpool : WalksOn A e (setBlock b .free (updPool (fun p => { p with free := p.free ++ [b] }) u)) := h.pool h.starved
  split
  · exact hpool
  · exact (keptWork_walksOn A e).pumpWalker ((keptWork_walksOn A e).walker hpool _)

theorem freeTransit (h : WalksOn A e u) (k : Option TransitNo) : WalksOn A e (freeTransit k u) := by
  unfold Machine.freeTransit
  split
  · next t =>
    refine { h with outstanding := fun j => ?_ }
    refine Eq.trans ?_ (h.outstanding j)
    show (u.du.transit.set t.val _ t.isLt)[j.val].outstanding = _
    rw [Vector.getElem_set]
    split
    · next hj =>
      simp only [Fin.getElem_fin, hj]
    · rfl
  · exact h

/-! ## The receiver that is given a block -/

/-- A change of a receiver that leaves CLOSING and its message's incomplete mark. -/
theorem rx (h : WalksOn A e u) (n : LineNo) {f : Receiver → Receiver}
    (hf : (f u.lines[n.val].rx).state = .closing →
      u.lines[n.val].rx.state = .closing ∧ (f u.lines[n.val].rx).asm.incomplete = u.lines[n.val].rx.asm.incomplete) :
    WalksOn A e (updRx n f u) where
  store := h.store
  router := h.router
  tx m := (updRx_tx f).trans (h.tx m)
  entries := h.entries
  active := h.active
  queues := h.queues
  outstanding := h.outstanding
  starved := h.starved
  apart m hm := by
    by_cases hn : m = n
    · subst hn
      have ha := h.apart m hm
      rw [updRx_line]
      intro hc
      obtain ⟨hstate, hinc⟩ := hf hc
      obtain ⟨hi, hp⟩ := ha hstate
      exact ⟨hinc.trans hi, hp⟩
    · rw [updRx, updLine_lines_ne _ _ hn]
      exact h.apart m hm

theorem handOff (h : WalksOn A e u) (hi : u.lines[n.val].rx.asm.incomplete = true) (hp : u.lines[n.val].settingsPending = false) :
    WalksOn A e (handOff n u) := by
  unfold Machine.handOff
  dsimp only
  rw [if_pos (by exact hi), checkIdlePoint_settled (by rw [updRx_line]; exact hp)]
  exact ((keptWork_walksOn A e).askWalk h _).rx n fun hc => RxState.noConfusion hc

/-- A request that ends no message, or one of a message that goes to no Router. -/
theorem rxOffer (h : WalksOn A e u) (r : Req)
    (hr : r.purpose = .rxClose true → u.lines[n.val].rx.asm.incomplete = true ∧ u.lines[n.val].settingsPending = false) :
    WalksOn A e (rxOffer n r u) := by
  unfold Machine.rxOffer
  split
  · have hplaced := (keptWork_walksOn A e).place h r
    have hline : (Machine.place r u).lines = u.lines := by rw [place_eq]
    unfold Machine.rxPlaced
    split
    · next hc =>
      obtain ⟨hi, hp⟩ := hr hc
      exact hplaced.handOff (by simp only [hline]; exact hi) (by simp only [hline]; exact hp)
    · exact hplaced
  · exact (keptWork_walksOn A e).waitFor (h.rx n fun hc => ⟨hc, rfl⟩) _

theorem assignBlock (h : WalksOn A e u) (n : LineNo) (b : Nat) : WalksOn A e (assignBlock n b u) := by
  have hasm : WalksOn A e (updAsm n (fun a => { a with
      current := some b, blockCount := a.blockCount + 1, first := some (a.first.getD b) }) u) := h.rx n fun hc => ⟨hc, rfl⟩
  unfold Machine.assignBlock
  dsimp only
  split
  · exact hasm
  · exact hasm.rxOffer _ fun hc => Purpose.noConfusion hc

theorem asm (h : WalksOn A e u) (n : LineNo) {f : Assembly → Assembly} (hf : ∀ a, (f a).incomplete = a.incomplete) :
    WalksOn A e (updAsm n f u) := h.rx n fun hc => ⟨hc, hf _⟩

theorem storeByte (h : WalksOn A e u) (n : LineNo) (b : Byte) : WalksOn A e (storeByte n b u) := by
  unfold Machine.storeByte
  dsimp only
  have hasm : WalksOn A e (updAsm n (fun a => { a with storedLength := a.storedLength + 1 }) u) := h.asm n fun _ => rfl
  refine hasm.rxOffer _ fun hc => ?_
  exact Purpose.noConfusion hc

theorem takeFree (h : WalksOn A e u) {v : BlockState} {b : Nat} {t : State} (ht : takeFree v u = some (b, t)) :
    WalksOn A e t := by
  unfold Machine.takeFree at ht
  split at ht
  · cases ht
  · cases ht
    refine (keptWork_walksOn A e).dropLinkWrites ?_ _
    exact h.pool h.starved

theorem askBlock (h : WalksOn A e u) (hn : A n) : WalksOn A e (askBlock n u) := by
  unfold Machine.askBlock Machine.requestBlock
  cases ht : Machine.takeFree .owned u with
  | some x =>
    obtain ⟨b, t⟩ := x
    exact (h.takeFree ht).assignBlock n b
  | none =>
    dsimp only
    split
    · exact h
    · refine h.pool fun m hm => ?_
      rcases List.mem_append.1 hm with hm | hm
      · exact h.starved m hm
      · exact List.mem_singleton.1 hm ▸ hn

theorem rxWork (h : WalksOn A e u) (hn : A n) {t : State} (ht : rxWork n u = some t) : WalksOn A e t := by
  unfold Machine.rxWork at ht
  dsimp only at ht
  split at ht
  · cases ht
  · split at ht
    · split at ht
      · cases ht
        exact h.askBlock hn
      · cases ht
        refine WalksOn.storeByte ?_ n _
        exact h.asm n fun _ => rfl
    · split at ht
      · next hc =>
        cases ht
        refine (h.rx n fun hs => ⟨hs, rfl⟩).rxOffer _ fun _ => ?_
        rw [updRx_line]
        exact h.apart n hn hc.1
      · cases ht

theorem rxContinue (h : WalksOn A e u) (hn : A n) (k : Nat) : WalksOn A e (rxContinue k n u) := by
  induction k generalizing u with
  | zero => exact h
  | succ k ih =>
    unfold Machine.rxContinue
    split
    · exact h
    · next ht => exact ih (h.rxWork hn ht)

theorem returnBlock (h : WalksOn A e u) (b : Nat) : WalksOn A e (returnBlock b u) := by
  unfold Machine.returnBlock
  split
  · exact h.joinFree b
  · next n rest hstarved =>
    have hrest : ∀ m ∈ rest, A m := fun m hm => h.starved m (hstarved ▸ List.mem_cons_of_mem _ hm)
    exact ((h.pool (p := { u.pool with starved := rest, map := u.pool.map.set b .owned }) hrest).assignBlock n b).rxContinue
      (h.starved n (hstarved ▸ List.mem_cons_self ..)) _

/-! ## Walks -/

theorem clearWalk (h : WalksOn A e u) : WalksOn A e (clearWalk u) := (keptWork_walksOn A e).walker h _

theorem endCounted (h : WalksOn A e u) (w : Walk) : WalksOn A e (endCounted w u) := by
  unfold Machine.endCounted
  dsimp only
  split
  · exact (keptWork_walksOn A e).offerReport h.clearWalk _
  · split
    · exact ((keptWork_walksOn A e).offerReport h.clearWalk _).freeTransit _
    · exact (keptWork_walksOn A e).offerReport h.clearWalk _
  · exact ((keptWork_walksOn A e).offerReport h.clearWalk _).freeTransit _

theorem setBlock (h : WalksOn A e u) (b : Nat) (v : BlockState) : WalksOn A e (setBlock b v u) := h.pool h.starved

theorem begun (h : WalksOn A e u) (w : ChainWalker) : WalksOn A e (pumpWalker { u with walker := w }) :=
  (keptWork_walksOn A e).pumpWalker ((keptWork_walksOn A e).walker h w)

theorem reachCounted (h : WalksOn A e u) (w : Walk) : WalksOn A e (reachCounted w u) := by
  unfold Machine.reachCounted
  split
  · exact h.endCounted w
  · split
    · exact h.begun _
    · unfold Machine.actCounted Machine.actOn
      dsimp only
      split
      · exact (h.setBlock _ _).endCounted _
      · exact (h.returnBlock _).endCounted _

theorem postEnded (h : WalksOn A e u) : WalksOn A e (postEnded u) := by
  have hpost : WalksOn A e { u with post := u.post.tail } := { h with }
  unfold Machine.postEnded
  dsimp only
  split
  · exact (keptWork_walksOn A e).askWalk hpost _
  · exact hpost

theorem failPosting (h : WalksOn A e u) (w : Walk) (r : Nat) : WalksOn A e (failPosting w r u) := by
  have hmarked : WalksOn A e (w.marked.foldl (fun s b => Machine.setBlock b .held s) u) :=
    foldl_keeps (WalksOn A e) (fun _ b hu => hu.setBlock b _) _ h
  exact ((keptWork_walksOn A e).offerReport hmarked _).clearWalk.postEnded

theorem startWalk (h : WalksOn A e u) (r : WalkRequest) : WalksOn A e (startWalk r u) := by
  unfold Machine.startWalk
  split
  · unfold Machine.reachPosting
    split
    · exact h.failPosting _ _
    · split
      · exact h.failPosting _ _
      · split
        · exact h.failPosting _ _
        · exact (h.setBlock _ _).begun _
  · unfold Machine.startHandOver
    dsimp only
    split
    · exact h.endCounted _
    · exact h.begun _
  · exact h.reachCounted _

theorem runWalker (h : WalksOn A e u) (k : Nat) : WalksOn A e (runWalker k u) := by
  induction k generalizing u with
  | zero => exact h
  | succ k ih =>
    unfold Machine.runWalker
    split
    · exact ih (((keptWork_walksOn A e).takeUntil ((keptWork_walksOn A e).walker h _) _).startWalk _)
    · exact h

end WalksOn

/-! ## The end of the event -/

theorem untouched_taken (h : Untouched e u) : Untouched e (updateAttn (startCycle (takeOffers u))) :=
  (keptWork_untouched e).report ((keptWork_untouched e).startCycle ((keptWork_untouched e).takeUntil h _)) _

/-- Where no message is handed to the Router, the end of an event touches none of it. -/
theorem untouched_settle (h : WalksApart u) : Untouched u (settle u) := by
  unfold settle
  split
  · exact (keptWork_untouched u).report (.refl u) _
  · refine untouched_taken ?_
    rcases h with hw | happart
    · rw [runWalker_quiet _ (.inl hw)]
      exact .refl u
    · have hwalks : WalksOn (fun m => m ∈ u.pool.starved) u u :=
        { Untouched.refl u with starved := fun _ hm => hm, apart := fun m hm => happart m hm }
      exact (hwalks.runWalker _).toUntouched

end Sys2Proof.Machine

/-! SUPPORT. A character boundary, branch by branch (R136). -/

namespace Sys2Proof.Machine

variable {s e u v w : State} {n : LineNo} {h : Hand} {d : DeliveryNo}

/-! ## The branches of a boundary -/

theorem silentTx_line : (updTx n silentTx s).lines[n.val] = { s.lines[n.val] with tx := silentTx s.lines[n.val].tx } :=
  updTx_line _ _

/-- The delivery in hand has more to send (R135). -/
def SendsOn (t : Transmitter) : Prop := ¬ (t.state = .sending ∧ textEnded t = true)

theorem sendsOn_calling {t : Transmitter} (hs : t.state = .calling) : SendsOn t :=
  fun ⟨hsend, _⟩ => TxState.noConfusion (hs.symm.trans hsend)

theorem sendsOn_text {t : Transmitter}
    (h : t.opening ≠ [] ∨ t.lenKnown = false ∨ t.holding ≠ [] ∨ t.readPos < t.effLen) : SendsOn t := by
  rintro ⟨-, hend⟩
  unfold textEnded at hend
  rw [Bool.and_eq_true, Bool.and_eq_true, Bool.and_eq_true, decide_eq_true_eq, List.isEmpty_iff, List.isEmpty_iff] at hend
  obtain ⟨⟨⟨hopen, hlen⟩, hhold⟩, hread⟩ := hend
  rcases h with h | h | h | h
  · exact h hopen
  · exact Bool.noConfusion (h.symm.trans hlen)
  · exact h hhold
  · omega

theorem textEnded_of {t : Transmitter} (hopen : t.opening = []) (hlen : t.lenKnown = true) (hhold : t.holding = [])
    (hread : t.effLen ≤ t.readPos) : textEnded t = true := by
  simp [textEnded, hopen, hlen, hhold, hread]

section
variable (hh : s.lines[n.val].tx.hand = some h)
include hh

theorem boundary_hand : boundary n s =
    if s.lines[n.val].tx.state = .sending ∧ textEnded s.lines[n.val].tx then completeDelivery n h (updTx n silentTx s)
    else if s.lines[n.val].tx.stopping then disableTakesEffect n (updTx n silentTx s)
    else
      match deferredRequest n (updTx n silentTx s) with
      | some s2 => beginBreakIn n s2
      | none =>
        if s.lines[n.val].tx.state = .calling ∧ s.lines[n.val].tx.opening = [] then callBoundary n h (updTx n silentTx s)
        else beginNext n (updTx n silentTx s) := by
  unfold boundary
  rw [endSending_eq]
  simp only [Fin.getElem_fin, silentTx_line]
  show (match s.lines[n.val].tx.hand with | none => _ | some h => _) = _
  rw [hh]
  rfl

theorem boundary_completes (hs : s.lines[n.val].tx.state = .sending) (ht : textEnded s.lines[n.val].tx = true) :
    boundary n s = completeDelivery n h (updTx n silentTx s) := by
  rw [boundary_hand hh, if_pos ⟨hs, ht⟩]

theorem boundary_stops (hmore : SendsOn s.lines[n.val].tx) (hstop : s.lines[n.val].tx.stopping = true) :
    boundary n s = disableTakesEffect n (updTx n silentTx s) := by
  rw [boundary_hand hh, if_neg hmore, if_pos hstop]

theorem boundary_defers (hmore : SendsOn s.lines[n.val].tx) (hstop : s.lines[n.val].tx.stopping = false)
    (hd : deferredRequest n (updTx n silentTx s) = some v) : boundary n s = beginBreakIn n v := by
  rw [boundary_hand hh, if_neg hmore, if_neg (by rw [hstop]; exact Bool.false_ne_true), hd]

theorem boundary_plain (hmore : SendsOn s.lines[n.val].tx) (hstop : s.lines[n.val].tx.stopping = false)
    (hdistant : isParty s.lines[n.val] = true ∨ s.lines[n.val].tx.distantBreak = false)
    (hc : s.du.entries[h.number].cancelPending = false) (hb : s.lines[n.val].tx.breakInPending = false) : boundary n s =
      if s.lines[n.val].tx.state = .calling ∧ s.lines[n.val].tx.opening = [] then callBoundary n h (updTx n silentTx s)
      else beginNext n (updTx n silentTx s) := by
  have hnone : deferredRequest n (updTx n silentTx s) = none := by
    have hd : (s.lines[n.val].tx.distantBreak && !isParty s.lines[n.val]) = false := by
      rcases hdistant with hd | hd <;> simp [hd]
    have hhand : (silentTx s.lines[n.val].tx).hand = some h := hh
    unfold deferredRequest
    simp only [Fin.getElem_fin, silentTx_line, hhand]
    rw [if_neg (by exact Bool.eq_false_iff.1 hd), if_neg (by exact Bool.eq_false_iff.1 hc), if_neg (by exact Bool.eq_false_iff.1 hb)]
  rw [boundary_hand hh, if_neg hmore, if_neg (by rw [hstop]; exact Bool.false_ne_true), hnone]

end

/-! ## The delivery's end at a boundary -/

/-- The transmitter with its delivery complete. -/
def completedTx (t : Transmitter) : Transmitter := { droppedTx t with distantBreak := false, breakInPending := false, send := true }

/-- The delivery has been given back as DONE; `v` is what that makes of the tables. -/
theorem completeDelivery_eq (hv : completeEntry h.number s = v) : completeDelivery n h s =
    if v.lines[n.val].tx.stopping then
      disableTakesEffect n { updTx n completedTx v with port := leftPort (.transmitter n) v.port }
    else enterIdle n { updTx n completedTx v with port := leftPort (.transmitter n) v.port } := by
  have hdrop : updTx n (fun t => { t with distantBreak := false, breakInPending := false, send := true }) (dropHand n v) =
      { updTx n completedTx v with port := leftPort (.transmitter n) v.port } := updTx_dropHand _ v
  have hline : (updTx n completedTx v).lines[n.val] = { v.lines[n.val] with tx := completedTx v.lines[n.val].tx } := updTx_line _ _
  unfold completeDelivery
  rw [hv, hdrop]
  show (if (updTx n completedTx v).lines[n.val].tx.stopping then _ else _) = _
  rw [hline]
  rfl

theorem deferredRequest_cancels (hh : s.lines[n.val].tx.hand = some h)
    (hd : isParty s.lines[n.val] = true ∨ s.lines[n.val].tx.distantBreak = false)
    (hc : s.du.entries[h.number].cancelPending = true) : deferredRequest n s = some (cancelAtBoundary n h s) := by
  have hdistant : (s.lines[n.val].tx.distantBreak && !isParty s.lines[n.val]) = false := by
    rcases hd with hd | hd <;> simp [hd]
  unfold deferredRequest
  simp only [Fin.getElem_fin, hh]
  rw [if_neg (by rw [hdistant]; exact Bool.false_ne_true), if_pos (by exact hc)]

/-- The transmitter whose break-in begins. -/
def breakingTx (t : Transmitter) : Transmitter := sendingTx .breakIn { brokenInTx (droppedTx t) with owed := none }

/-- The break-in of a request that was acted on begins at this tick. -/
theorem beginBreakIn_begins (hv : v.lines[n.val].tx = brokenInTx (droppedTx u.lines[n.val].tx)) :
    beginBreakIn n v = updTx n (fun t => sendingTx .breakIn { t with owed := none }) v := by
  unfold beginBreakIn
  rw [if_pos (by rw [Fin.getElem_fin, hv]; rfl)]
  exact beginNext_breakIn (by rw [hv]; rfl)

theorem beginBreakIn_other (hv : v.lines[n.val].tx.state ≠ .breakIn) : beginBreakIn n v = v := if_neg hv

/-- The cancel at the boundary, and its break-in. -/
theorem cancelAtBoundary_begins (hv : cancelEntry h.number s = v) : beginBreakIn n (cancelAtBoundary n h s) =
    { updTx n breakingTx v with port := leftPort (.transmitter n) v.port } := by
  have hdrop : cancelAtBoundary n h s =
      { updTx n (fun t => brokenInTx (droppedTx t)) v with port := leftPort (.transmitter n) v.port } := by
    unfold cancelAtBoundary
    rw [hv]
    exact updTx_dropHand brokenInTx v
  rw [hdrop, beginBreakIn_begins (u := v) (by
    show (updTx n (fun t => brokenInTx (droppedTx t)) v).lines[n.val].tx = _
    rw [updTx_line])]
  exact congrArg (fun x : State => { x with port := leftPort (.transmitter n) v.port })
    (updTx_updTx (fun t => sendingTx .breakIn { t with owed := none }) (fun t => brokenInTx (droppedTx t)) v)

/-- The victim of a flash, and its break-in. -/
theorem preemptVictim_begins (hc : s.du.entries[h.number].cancelPending = false)
    (hl : s.du.entries[h.number].line = n) (ha : s.du.active[n] = some h.number) (hr : s.du.rewrites = []) :
    beginBreakIn n (preemptVictim n h s) = offerReport
      (plainReport .deliveryInterrupted n.val (BitVec.ofNat 16 h.number.val) 5 s.office.clock)
      { updTx n breakingTx { s with du := interruptedDelivery s n h.number s.lines[n.val].tx.textBegun } with
        port := leftPort (.transmitter n) s.port } := by
  obtain ⟨v, hv⟩ : ∃ v : State, v = { s with du := interruptedDelivery s n h.number s.lines[n.val].tx.textBegun } := ⟨_, rfl⟩
  have hvl : v.port = s.port := by rw [hv]
  rw [preemptVictim_plain hc hl ha hr, ← hv, beginBreakIn_begins (u := v) (by
    show (updTx n (fun t => brokenInTx (droppedTx t)) v).lines[n.val].tx = _
    rw [updTx_line])]
  exact congrArg (fun x : State => offerReport
      (plainReport .deliveryInterrupted n.val (BitVec.ofNat 16 h.number.val) 5 s.office.clock)
      { x with port := leftPort (.transmitter n) s.port })
    (updTx_updTx (fun t => sendingTx .breakIn { t with owed := none }) (fun t => brokenInTx (droppedTx t)) v)

/-- A failed try: the line pauses. -/
theorem failTryToHead_begins (he : failedTryEntry h.number s.lines[n.val].tx.textBegun s = e)
    (hp : pauses e.lines[n.val] = true) : beginBreakIn n (failTryToHead n h s) =
      { updTx n (fun t => pausedTx (failedTx (droppedTx t))) e with port := leftPort (.transmitter n) e.port } := by
  rw [failTryToHead_pauses he hp, beginBreakIn_other]
  show (updTx n (fun t => pausedTx (failedTx (droppedTx t))) e).lines[n.val].tx.state ≠ .breakIn
  rw [updTx_line]
  exact TxState.noConfusion

/-- The DISABLE takes effect on a line whose receiver has no message; `v` is what the delivery's end makes of the tables. -/
theorem disableTakesEffect_gives (hv : giveBackHand n 1 s = v) (hm : hasMessage v.lines[n.val].rx = false)
    (hp : v.lines[n.val].settingsPending = false) : disableTakesEffect n s =
      { updLine n offLine v with port := leftPort (.transmitter n) (leftPort (.transmitter n) v.port) } := by
  unfold disableTakesEffect
  rw [hv, goOff_hunting hm, checkIdlePoint_settled]
  show (updLine n offLine v).lines[n.val].settingsPending = false
  rw [updLine_line]
  exact hp

/-! ## The call set at a boundary (R151, R154) -/

theorem callBoundary_eq {pos : Nat} (hpos : s.lines[n.val].tx.callPos = some pos) :
    callBoundary n h s = beginCall n (endCall n h pos s) := by
  unfold callBoundary
  simp only [Fin.getElem_fin, hpos]

theorem beginCall_other (hs : s.lines[n.val].tx.state ≠ .calling) : beginCall n s = s := if_neg hs

theorem endCall_waits {pos : Nat} {m : Member} (hm : h.callSet[pos - 1]? = some m) (hc : m.confirm = true) :
    endCall n h pos s =
      updTx n (fun t => { t with state := .answerWait, answerCount := some 0, answerWindow := [], send := true }) s := by
  unfold endCall
  rw [hm]
  exact if_pos hc

theorem endCall_answers {pos : Nat} {m : Member} (hm : h.callSet[pos - 1]? = some m) (hc : m.confirm = false) :
    endCall n h pos s = nextMember n h pos (setAnswered h.number pos s) := by
  unfold endCall
  rw [hm]
  exact if_neg (Bool.eq_false_iff.1 hc)

/-- The transmitter as the LTRS of the next member's call begins. -/
def calledTx (s : State) (pos : Nat) (m : Member) (stop : StopLength) (t : Transmitter) : Transmitter :=
  sendingTx (.frame s.office.held.ltrs stop)
    { t with
      state := .calling, callPos := some pos, answerCount := none, answerWindow := []
      opening := [m.callCode.extractLsb' 5 5, m.callCode.extractLsb' 0 5] }

/-- The next member's call begins at this tick (log 43). -/
theorem beginCall_calls {pos : Nat} {m : Member} (ho : s.lines[n.val].tx.owed = none) :
    beginCall n (enterCalling n pos m s) = updTx n (calledTx s pos m s.lines[n.val].active.stop) s := by
  have hline : (enterCalling n pos m s).lines[n.val] = { s.lines[n.val] with tx := { s.lines[n.val].tx with
      state := .calling, callPos := some pos, answerCount := none, answerWindow := []
      opening := [s.office.held.ltrs, m.callCode.extractLsb' 5 5, m.callCode.extractLsb' 0 5] } } := updTx_line _ _
  unfold beginCall
  rw [if_pos (by rw [Fin.getElem_fin, hline]), beginNext_opening (c := s.office.held.ltrs)
    (rest := [m.callCode.extractLsb' 5 5, m.callCode.extractLsb' 0 5]) (by rw [hline]; exact ho)
    (by rw [hline]; exact .inr rfl) (by rw [hline])]
  simp only [Fin.getElem_fin, hline]
  exact updTx_updTx _ _ s

end Sys2Proof.Machine

/-! SUPPORT. A delivery that is freed at a boundary, and a boundary at which one goes on. -/

namespace Sys2Proof.Machine

variable {s e u v w t : State} {n : LineNo} {h : Hand} {d : DeliveryNo}

/-! ## A freed delivery, whatever the Store Port admits -/

/-- `v` is `w` after the Delivery Unit offered its rewrites: no line, no block and no walk in progress is touched. -/
structure Offered (w v : State) : Prop extends Untouched w v where
  lines : v.lines = w.lines
  pool : v.pool = w.pool
  walk : v.walker.walk = w.walker.walk

theorem offered_pumpDelivery (w : State) : Offered w (pumpDelivery w) := by
  refine pump_keeps (P := fun u => Offered w u) (fun _ _ h => { h with }) (fun u h => ?_)
    { Untouched.refl w with lines := rfl, pool := rfl, walk := rfl }
  unfold rewritePlaced
  split
  · exact h
  · dsimp only
    split <;> exact { h with }

theorem Untouched.trans (h : Untouched e u) (h' : Untouched u v) : Untouched e v where
  store := h'.store.trans h.store
  router := h'.router.trans h.router
  tx m := (h'.tx m).trans (h.tx m)
  entries := h'.entries.trans h.entries
  active := h'.active.trans h.active
  queues := h'.queues.trans h.queues
  outstanding k := (h'.outstanding k).trans (h.outstanding k)

theorem updTx_tx {f : Transmitter → Transmitter} (m : LineNo) :
    (updTx n f u).lines[m.val].tx = if m = n then f u.lines[m.val].tx else u.lines[m.val].tx := by
  by_cases hm : m = n
  · subst hm
    rw [if_pos rfl, updTx_line]
  · rw [if_neg hm, updTx, updLine_lines_ne _ _ hm]

/-- A change of a transmitter leaves the receivers and the settings. -/
theorem walksApart_updTx (f : Transmitter → Transmitter) (h : WalksApart u) : WalksApart (updTx n f u) := by
  refine h.imp id fun happart m hm => ?_
  have hline : (updTx n f u).lines[m.val].rx = u.lines[m.val].rx ∧
      (updTx n f u).lines[m.val].settingsPending = u.lines[m.val].settingsPending := by
    by_cases hmn : m = n
    · subst hmn
      rw [updTx_line]
      exact ⟨rfl, rfl⟩
    · rw [updTx, updLine_lines_ne _ _ hmn]
      exact ⟨rfl, rfl⟩
  simp only [Fin.getElem_fin, hline.1, hline.2]
  exact happart m hm

theorem Offered.apart (h : Offered w v) (hw : WalksApart w) : WalksApart v := by
  rcases hw with hw | hw
  · exact .inl (h.walk ▸ hw)
  · refine .inr fun m hm => ?_
    simp only [h.lines]
    exact hw m (h.pool ▸ hm)

/-- The event ends with a freed delivery whose rewrite may wait or not. -/
theorem Offered.settled (h : Offered w v) (hw : WalksApart w) (f : Transmitter → Transmitter) (p : StorePort) :
    Untouched (updTx n f w) (settle { updTx n f v with port := p }) := by
  have hsame : Untouched (updTx n f w) { updTx n f v with port := p } :=
    { store := h.store, router := h.router, entries := h.entries, active := h.active, queues := h.queues
      outstanding := h.outstanding
      tx := fun m => by
        show (updTx n f v).lines[m.val].tx = (updTx n f w).lines[m.val].tx
        rw [updTx_tx, updTx_tx, h.tx] }
  exact hsame.trans (untouched_settle (walksApart_updTx f (h.apart hw)))

/-- What `freedDelivery` says of the entry, the active place, the queue and the count. -/
theorem freedDelivery_entry {count : Nat} {rs : List Record} : (freedDelivery s n d count rs).active[n.val] = none ∧
    (freedDelivery s n d count rs).entries[d.val].state = .free ∧ (freedDelivery s n d count rs).entries[d.val].cancelPending = false ∧
    (freedDelivery s n d count rs).queues[n.val] = s.du.queues[n.val].filter (fun x => x != d) ∧
    (freedDelivery s n d count rs).transit[(s.du.entries[d].transit).val].outstanding = count := by
  simp [freedDelivery]

/-- What the statement says of a delivery that is freed as line `n`'s transmitter becomes `x`. -/
structure FreedAt (s : State) (n : LineNo) (d : DeliveryNo) (k : TransitNo) (x : Transmitter) (t : State) : Prop where
  tx : t.lines[n.val].tx = x
  active : t.du.active[n.val] = none
  state : t.du.entries[d.val].state = .free
  cancel : t.du.entries[d.val].cancelPending = false
  outstanding : t.du.transit[k.val].outstanding = s.du.transit[k.val].outstanding - 1
  store : t.store = s.store
  router : t.router = s.router

/-- A delivery is freed in the machine `w`, which is `s` but for line `n`'s transmitter, the rewrites and the reports. -/
theorem freedAt_of {f : Transmitter → Transmitter} {rs : List Record} {p : StorePort} {k : TransitNo} (hk : k = s.du.entries[d].transit)
    (hw : WalksApart s) (hu : u = { updTx n silentTx s with du := { s.du with rewrites := u.du.rewrites }, report := u.report })
    (hv : freeEntry d rs u = v) (hl : s.du.entries[d].line = n) (ha : s.du.active[n] = some d) :
    FreedAt s n d k (f (silentTx s.lines[n.val].tx)) (settle { updTx n f v with port := p }) := by
  obtain ⟨rw, hrw⟩ : ∃ rw, rw = u.du.rewrites := ⟨_, rfl⟩
  obtain ⟨rep, hrep⟩ : ∃ rep, rep = u.report := ⟨_, rfl⟩
  rw [← hrw, ← hrep] at hu
  subst hk
  obtain ⟨c, hc⟩ : ∃ c, c = s.du.transit[s.du.entries[d].transit].outstanding - 1 := ⟨_, rfl⟩
  have hfree : freeEntry d rs u = pumpDelivery { u with du := freedDelivery u n d c rs } :=
    freeEntry_active (by rw [hu]; exact hl) (by rw [hu]; exact ha) (by rw [hu]; exact hc.symm)
  have hoffered : Offered { u with du := freedDelivery u n d c rs } v := by
    rw [← hv, hfree]
    exact offered_pumpDelivery _
  have hapart : WalksApart { u with du := freedDelivery u n d c rs } := by
    rw [hu]
    exact walksApart_updTx silentTx hw
  have hsettled := hoffered.settled (n := n) hapart f p
  obtain ⟨hactive, hstate, hcancel, -, hcount⟩ := freedDelivery_entry (s := u) (n := n) (d := d) (count := c) (rs := rs)
  have htransit : u.du.entries[d].transit = s.du.entries[d].transit := by rw [hu]
  constructor
  case tx =>
    refine (hsettled.tx n).trans ?_
    rw [updTx_line]
    refine congrArg f ?_
    show u.lines[n.val].tx = _
    rw [hu]
    exact congrArg LineUnit.tx silentTx_line
  case active => exact (congrArg (fun a : Vector (Option DeliveryNo) 24 => a[n.val]) hsettled.active).trans hactive
  case state => exact (congrArg (fun a : Vector Delivery 256 => a[d.val].state) hsettled.entries).trans hstate
  case cancel => exact (congrArg (fun a : Vector Delivery 256 => a[d.val].cancelPending) hsettled.entries).trans hcancel
  case outstanding =>
    refine (hsettled.outstanding _).trans ?_
    rw [← htransit]
    refine hcount.trans ?_
    rw [htransit]
    exact hc
  case store =>
    refine hsettled.store.trans ?_
    show u.store = _
    rw [hu]
    rfl
  case router =>
    refine hsettled.router.trans ?_
    show u.router = _
    rw [hu]
    rfl

end Sys2Proof.Machine

/-! SUPPORT. The outcomes of a character boundary. -/

namespace Sys2Proof.Machine

variable {s e u v w t : State} {n : LineNo} {h : Hand} {d : DeliveryNo} {k : TransitNo}

/-! ## The event -/

theorem exec_characterBoundary {c0 : Code} {stop : StopLength} {i : Nat} (hq : Quiet s)
    (hsend : s.lines[n.val].tx.sending = some ⟨.frame c0 stop, i⟩) :
    exec (.characterBoundary n) s = .next (settle (boundary n s)) := by
  refine lineEvent_due (due := fun l => frameInProgress l.tx) hq.1 ?_
  unfold frameInProgress
  rw [Fin.getElem_fin, hsend]

/-- The next code follows. -/
theorem boundary_code {c : Code} {rest : List Code} (hh : s.lines[n.val].tx.hand = some h)
    (hstop : s.lines[n.val].tx.stopping = false) (howed : s.lines[n.val].tx.owed = none)
    (hs : s.lines[n.val].tx.state = .sending ∨ s.lines[n.val].tx.state = .calling)
    (ho : s.lines[n.val].tx.opening = c :: rest) (hd : s.lines[n.val].tx.distantBreak = false)
    (hb : s.lines[n.val].tx.breakInPending = false) (hc : s.du.entries[h.number].cancelPending = false) :
    boundary n s = updTx n (fun t => sendingTx (.frame c s.lines[n.val].active.stop) { silentTx t with opening := rest }) s := by
  have hmore : SendsOn s.lines[n.val].tx := sendsOn_text (.inl (by rw [ho]; exact List.cons_ne_nil _ _))
  rw [boundary_plain hh hmore hstop (.inr hd) hc hb, if_neg (fun hx => by rw [ho] at hx; exact List.cons_ne_nil _ _ hx.2),
    beginNext_opening (c := c) (rest := rest) (by rw [silentTx_line]; exact howed) (by rw [silentTx_line]; exact hs)
      (by rw [silentTx_line]; exact ho), updTx_updTx]
  simp only [Fin.getElem_fin, silentTx_line]

/-- After a call code that needs an answer the transmitter waits for it (R151). -/
theorem boundary_waits {m : Member} {pos : Nat} (hh : s.lines[n.val].tx.hand = some h)
    (hstop : s.lines[n.val].tx.stopping = false) (hs : s.lines[n.val].tx.state = .calling)
    (ho : s.lines[n.val].tx.opening = []) (hpos : s.lines[n.val].tx.callPos = some pos)
    (hm : h.callSet[pos - 1]? = some m) (hconf : m.confirm = true) (hb : s.lines[n.val].tx.breakInPending = false)
    (ht : s.lines[n.val].active.type = .party) (hc : s.du.entries[h.number].cancelPending = false) : boundary n s =
      updTx n (fun t => { silentTx t with state := .answerWait, answerCount := some 0, answerWindow := [] }) s := by
  rw [boundary_plain hh (sendsOn_calling hs) hstop (.inl (by simp [isParty, ht])) hc hb, if_pos ⟨hs, ho⟩,
    callBoundary_eq (by rw [silentTx_line]; exact hpos), endCall_waits hm hconf, beginCall_other (by
      rw [updTx_line]
      exact TxState.noConfusion), updTx_updTx]
  rfl

/-! ## After a member that needs no answer (R151, R154) -/

/-- The Delivery Unit with member `x` of delivery `d` answered. -/
def answeredDelivery (s : State) (d : DeliveryNo) (front : List Member) (x : Member) (back : List Member) : DeliveryUnit :=
  { s.du with entries := s.du.entries.set d { s.du.entries[d] with callSet := front ++ { x with answered := true } :: back } }

section
variable {m x : Member} {front back : List Member} {pos : Nat} (hh : s.lines[n.val].tx.hand = some h)
  (hstop : s.lines[n.val].tx.stopping = false) (hs : s.lines[n.val].tx.state = .calling)
  (ho : s.lines[n.val].tx.opening = []) (hpos : s.lines[n.val].tx.callPos = some pos)
  (hm : h.callSet[pos - 1]? = some m) (hconf : m.confirm = false) (hb : s.lines[n.val].tx.breakInPending = false)
  (ht : s.lines[n.val].active.type = .party) (hc : s.du.entries[h.number].cancelPending = false)
  (hset : s.du.entries[h.number].callSet = front ++ x :: back) (hlen : front.length = pos - 1)
include hh hstop hs ho hpos hm hconf hb ht hc hset hlen

theorem boundary_answers : boundary n s = beginCall n (nextMember n h pos
    { updTx n silentTx s with du := answeredDelivery s h.number front x back }) := by
  rw [boundary_plain hh (sendsOn_calling hs) hstop (.inl (by simp [isParty, ht])) hc hb, if_pos ⟨hs, ho⟩,
    callBoundary_eq (by rw [silentTx_line]; exact hpos), endCall_answers hm hconf,
    setAnswered_at (s := updTx n silentTx s) hset hlen]
  rfl

/-- The next member is called at this tick. -/
theorem boundary_calls {next : Member} (hnext : h.callSet[pos]? = some next) (howed : s.lines[n.val].tx.owed = none) :
    boundary n s = { updTx n (fun t => calledTx s (pos + 1) next s.lines[n.val].active.stop (silentTx t)) s with
      du := answeredDelivery s h.number front x back } := by
  obtain ⟨v, hv⟩ : ∃ v : State, v = { updTx n silentTx s with du := answeredDelivery s h.number front x back } := ⟨_, rfl⟩
  have hline : v.lines[n.val] = { s.lines[n.val] with tx := silentTx s.lines[n.val].tx } := by
    rw [hv]
    exact silentTx_line
  rw [boundary_answers hh hstop hs ho hpos hm hconf hb ht hc hset hlen, nextMember_calls hnext, ← hv,
    beginCall_calls (by rw [hline]; exact howed), hline, hv]
  exact congrArg (fun y : State => { y with du := answeredDelivery s h.number front x back })
    (updTx_updTx (calledTx s (pos + 1) next s.lines[n.val].active.stop) silentTx s)

/-- All the members have answered: the text begins with its two reads. -/
theorem boundary_begins (hend : h.callSet.length ≤ pos) (hall : ∀ y ∈ front ++ back, y.answered = true)
    (hout : s.lines[n.val].tx.out = []) (hroom : PortRoom 2 s.port) : boundary n s =
      { updTx n (fun t => { begunTx h (openingCodes s h) (silentTx t) with live := t.live + 2 }) s with
        du := answeredDelivery s h.number front x back, port := placedAll (firstReads s n h) s.port } := by
  obtain ⟨v, hv⟩ : ∃ v : State, v = { updTx n silentTx s with du := answeredDelivery s h.number front x back } := ⟨_, rfl⟩
  have hline : v.lines[n.val] = { s.lines[n.val] with tx := silentTx s.lines[n.val].tx } := by
    rw [hv]
    exact silentTx_line
  have hanswered : v.du.entries[h.number].callSet.all (fun m => m.answered) = true := by
    rw [hv]
    simp only [answeredDelivery, Fin.getElem_fin, Vector.getElem_set_self, List.all_append, List.all_cons, Bool.true_and]
    rw [← List.all_append, List.all_eq_true]
    exact hall
  have hport : v.port = s.port := by rw [hv]; rfl
  rw [boundary_answers hh hstop hs ho hpos hm hconf hb ht hc hset hlen,
    nextMember_ends (List.getElem?_eq_none hend), ← hv, endCallSet_answered hanswered,
    enterSending_room (by rw [hline]; exact hout) (by rw [hport]; exact hroom), beginCall_other]
  · rw [hv]
    exact congrArg (fun y : State => { y with
      du := answeredDelivery s h.number front x back, port := placedAll (firstReads s n h) s.port })
      (updTx_updTx (fun t => { begunTx h (openingCodes s h) t with live := t.live + 2 }) silentTx s)
  · show (updTx n (fun t => { begunTx h (openingCodes v h) t with live := t.live + 2 }) v).lines[n.val].tx.state ≠ .calling
    rw [updTx_line]
    exact TxState.noConfusion

end

end Sys2Proof.Machine

/-! SUPPORT. How the delivery in hand ends at a character boundary: done, cancelled, interrupted, failed or stopped. -/

namespace Sys2Proof.Machine

variable {s e u v w t : State} {n : LineNo} {h : Hand} {d : DeliveryNo} {k : TransitNo} {q : StorePort}

/-! ## The waiting list after a report (R9, R182) -/

/-- An issuer that offers joins the waiting list alone. -/
theorem mem_waiting_pump {i j : Issuer} {next : State → Option Req} {placed : State → State} {m : Nat}
    (hp : ∀ u, (placed u).port = u.port) (hj : j ∈ (pump i next placed m u).port.waiting) : j ∈ u.port.waiting ∨ j = i := by
  induction m generalizing u with
  | zero => exact .inl hj
  | succ m ih =>
    unfold pump at hj
    split at hj
    · exact .inl hj
    · split at hj
      · refine (ih hj).imp_left fun hm => ?_
        rwa [hp, place_port, placedPort_waiting] at hm
      · rw [waitFor_port] at hj
        dsimp only at hj
        unfold waitingPort at hj
        split at hj
        · exact .inl hj
        · simpa using hj

theorem not_mem_waiting_offers {r : Record} (hq : Quiet e) (hn : Issuer.transmitter n ∉ q.waiting) :
    Issuer.transmitter n ∉ (settle (offerReport r { e with port := q })).port.waiting := by
  rw [settle_offerReport (s := { e with port := q }) hq]
  intro hmem
  have hmem' : Issuer.transmitter n ∈ (startCycle (takeReport r { e with port := q })).port.waiting := hmem
  rw [startCycle_waiting] at hmem'
  rcases mem_waiting_pump (placed := reportWordPlaced) (fun _ => rfl) hmem' with hm | hm
  · rw [acceptReport_eq] at hm
    exact hn hm
  · exact Issuer.noConfusion hm

/-! ## What each end makes of the entry (R110) -/

/-- The reports of a completion: DELIVERY DONE and, with a cancel pending, CANCEL REFUSED (R135). -/
def doneReports (s : State) (n : LineNo) (d : DeliveryNo) : List Record :=
  plainReport .deliveryDone n.val (BitVec.ofNat 16 d.val) (BitVec.ofNat 16 s.du.entries[d].transit.val) s.office.clock ::
    (if s.du.entries[d].cancelPending then
      [plainReport .cancelRefused n.val (BitVec.ofNat 16 d.val) 2 s.office.clock] else [])

theorem completeEntry_eq (hl : s.du.entries[d].line = n) : completeEntry d s = freeEntry d (doneReports s n d) s := by
  subst hl
  rfl

theorem cancelEntry_eq (hl : s.du.entries[d].line = n) : cancelEntry d s = freeEntry d [cancelledReport s n d] s := by
  subst hl
  rfl

/-- DELIVERY FAILED of the whole delivery (R113). -/
def failedReport (s : State) (n : LineNo) (d : DeliveryNo) : Record :=
  plainReport .deliveryFailed n.val (BitVec.ofNat 16 d.val) (255#8 ++ 1#8) s.office.clock

theorem failEntry_eq (hl : s.du.entries[d].line = n) : failEntry d 1 s = freeEntry d [failedReport s n d] s := by
  subst hl
  rfl

/-- DELIVERY INTERRUPTED joins the rewrites or is offered, and nothing else changes (R114). -/
theorem reportInterrupted_eq (d : DeliveryNo) (r : Nat) (s : State) : reportInterrupted d r s =
    { s with
      du := { s.du with rewrites := (reportInterrupted d r s).du.rewrites }
      report := (reportInterrupted d r s).report } := by
  unfold reportInterrupted reportWithoutCount
  split <;> rfl

theorem failedTryEntry_cancels {begun : Bool} (hc : s.du.entries[d].cancelPending = true) :
    failedTryEntry d begun s = cancelEntry d s := if_pos hc

theorem failedTryEntry_fails {begun : Bool} (hc : s.du.entries[d].cancelPending = false) (hk : 2 ≤ s.du.entries[d].attempts) :
    failedTryEntry d begun s = failEntry d 1 (reportInterrupted d 3 s) := by
  unfold failedTryEntry
  rw [if_neg (by rw [hc]; exact Bool.false_ne_true), if_neg (by omega)]

theorem interruptEntry_cancels {r : Nat} {begun : Bool} (hc : s.du.entries[d].cancelPending = true) :
    interruptEntry d r begun s = cancelEntry d s := if_pos hc

theorem freeEntry_offered {rs : List Record} (hl : u.du.entries[d].line = n) (ha : u.du.active[n] = some d) :
    ∃ count, Offered { u with du := freedDelivery u n d count rs } (freeEntry d rs u) := by
  refine ⟨u.du.transit[u.du.entries[d].transit].outstanding - 1, ?_⟩
  rw [freeEntry_active hl ha rfl]
  exact offered_pumpDelivery _

/-! ## The completion (R135) -/

/-- The entry to IDLE after a completion is the change `f` of the transmitter. -/
theorem boundary_done {f : Transmitter → Transmitter} (hh : s.lines[n.val].tx.hand = some h)
    (hs : s.lines[n.val].tx.state = .sending) (hend : textEnded s.lines[n.val].tx = true)
    (hstop : s.lines[n.val].tx.stopping = false) (hv : completeEntry h.number (updTx n silentTx s) = v)
    (hvl : v.lines = (updTx n silentTx s).lines)
    (hidle : ∀ y : State, y.lines[n.val] = { s.lines[n.val] with tx := completedTx (silentTx s.lines[n.val].tx) } →
      y.du = v.du → enterIdle n y = updTx n f y) :
    boundary n s = { updTx n (fun t => f (completedTx t)) v with port := leftPort (.transmitter n) v.port } := by
  have hline : v.lines[n.val] = { s.lines[n.val] with tx := silentTx s.lines[n.val].tx } := by
    simp only [hvl]
    exact silentTx_line
  rw [boundary_completes hh hs hend, completeDelivery_eq hv, if_neg (by
    rw [hline]
    exact Bool.eq_false_iff.1 hstop), hidle]
  · exact congrArg (fun x : State => { x with port := leftPort (.transmitter n) v.port }) (updTx_updTx f completedTx v)
  · show (updTx n completedTx v).lines[n.val] = _
    rw [updTx_line, hline]
  · rfl

/-- With stopping set the DISABLE follows. -/
theorem boundary_doneStops (hh : s.lines[n.val].tx.hand = some h)
    (hs : s.lines[n.val].tx.state = .sending) (hend : textEnded s.lines[n.val].tx = true)
    (hstop : s.lines[n.val].tx.stopping = true) (hrx : s.lines[n.val].rx.state = .hunting)
    (hp : s.lines[n.val].settingsPending = false) (hv : completeEntry h.number (updTx n silentTx s) = v)
    (hvl : v.lines = (updTx n silentTx s).lines) :
    ∃ q, Issuer.transmitter n ∉ q.waiting ∧ boundary n s = { updLine n offLine v with port := q } := by
  have hline : v.lines[n.val] = { s.lines[n.val] with tx := silentTx s.lines[n.val].tx } := by
    simp only [hvl]
    exact silentTx_line
  have hdone : (updTx n completedTx v).lines[n.val] = { v.lines[n.val] with tx := completedTx v.lines[n.val].tx } := updTx_line _ _
  obtain ⟨q, hq⟩ : ∃ q, q = leftPort (.transmitter n) (leftPort (.transmitter n) (leftPort (.transmitter n) v.port)) := ⟨_, rfl⟩
  refine ⟨q, by rw [hq]; exact not_mem_leftPort _ _, ?_⟩
  rw [boundary_completes hh hs hend, completeDelivery_eq hv, if_pos (by rw [hline]; exact hstop), disableTakesEffect_plain (by
      show (updTx n completedTx v).lines[n.val].tx.hand = none
      rw [hdone]
      rfl) (by
      show hasMessage (updTx n completedTx v).lines[n.val].rx = false
      rw [hdone, hline]
      exact hasMessage_hunting hrx) (by
      show (updTx n completedTx v).lines[n.val].settingsPending = false
      rw [hdone, hline]
      exact hp)]
  have hoff : updLine n offLine (updTx n completedTx v) = updLine n offLine v := by
    unfold updTx
    rw [updLine_updLine]
    exact updLine_congr rfl
  refine Eq.trans ?_ (congrArg (fun x : State => { x with port := q }) hoff)
  subst hq
  rfl

/-! ## The DISABLE at a boundary (R126) -/

/-- The delivery in hand has been given back or freed; `v` is what that makes of the tables. -/
theorem boundary_off (hh : s.lines[n.val].tx.hand = some h) (hmore : SendsOn s.lines[n.val].tx)
    (hstop : s.lines[n.val].tx.stopping = true) (hrx : s.lines[n.val].rx.state = .hunting)
    (hp : s.lines[n.val].settingsPending = false)
    (hv : interruptEntry h.number 1 s.lines[n.val].tx.textBegun (updTx n silentTx s) = v) :
    ∃ q, Issuer.transmitter n ∉ q.waiting ∧ boundary n s = { updLine n offLine v with port := q } := by
  have hvl : v.lines = (updTx n silentTx s).lines := by rw [← hv, lines_interruptEntry]
  have hline : v.lines[n.val] = { s.lines[n.val] with tx := silentTx s.lines[n.val].tx } := by
    simp only [hvl]
    exact silentTx_line
  refine ⟨leftPort (.transmitter n) (leftPort (.transmitter n) v.port), not_mem_leftPort _ _, ?_⟩
  rw [boundary_stops hh hmore hstop]
  refine disableTakesEffect_gives ((giveBackHand_hand hh).trans hv) ?_ ?_
  · rw [hline]
    exact hasMessage_hunting hrx
  · rw [hline]
    exact hp

end Sys2Proof.Machine

/-! SUPPORT. The outcomes of a character boundary in which the delivery is freed or given back. -/

namespace Sys2Proof.Machine

variable {s e u v w t : State} {n : LineNo} {h : Hand} {d : DeliveryNo} {k : TransitNo} {q : StorePort}

theorem breakingTx_eq {t : Transmitter} (ho : t.owed = none) : breakingTx t =
    { droppedTx t with state := .breakIn, sending := some ⟨.breakIn, 0⟩, send := false } := by
  cases t
  dsimp only at ho
  subst ho
  rfl

section
variable (hh : s.lines[n.val].tx.hand = some h) (hstop : s.lines[n.val].tx.stopping = false)
  (hl : s.du.entries[h.number].line = n) (ha : s.du.active[n] = some h.number)

/-! ## The entry is freed, whatever the Store Port admits -/

section
variable (hk : k = s.du.entries[h.number].transit) (hw : WalksApart s)
include hh hstop hl ha hk hw

theorem boundary_done_frees (hs : s.lines[n.val].tx.state = .sending) (hend : textEnded s.lines[n.val].tx = true)
    (hrec : s.lines[n.val].recovery = false) (hp : s.lines[n.val].settingsPending = false) (hqueue : s.du.queues[n.val] = []) :
    FreedAt s n h.number k (idleTx (completedTx (silentTx s.lines[n.val].tx))) (settle (boundary n s)) := by
  obtain ⟨v, hv⟩ : ∃ v, v = freeEntry h.number (doneReports (updTx n silentTx s) n h.number) (updTx n silentTx s) := ⟨_, rfl⟩
  have hdone : completeEntry h.number (updTx n silentTx s) = v := by
    rw [hv]
    exact completeEntry_eq hl
  obtain ⟨count, hoffered⟩ := freeEntry_offered (u := updTx n silentTx s) (d := h.number)
    (rs := doneReports (updTx n silentTx s) n h.number) hl ha
  rw [← hv] at hoffered
  have hempty : v.du.queues[n.val] = [] := by
    obtain ⟨-, -, -, hfilter, -⟩ := freedDelivery_entry (s := updTx n silentTx s) (n := n) (d := h.number) (count := count)
      (rs := doneReports (updTx n silentTx s) n h.number)
    refine (congrArg (fun a : Vector (List DeliveryNo) 24 => a[n.val]) hoffered.queues).trans (hfilter.trans ?_)
    show s.du.queues[n.val].filter _ = []
    rw [hqueue]
    rfl
  rw [boundary_done (f := idleTx) hh hs hend hstop hdone hoffered.lines fun y hy hdu => ?_]
  · exact freedAt_of hk hw rfl hv.symm hl ha (f := fun t => idleTx (completedTx t))
  · refine enterIdle_empty ?_ ?_ ?_
    · rw [hy, pauses_eq_false_iff]
      exact .inr hrec
    · rw [hy]
      exact hp
    · simp only [hdu]
      exact hempty

theorem boundary_cancel_frees (hmore : SendsOn s.lines[n.val].tx) (hd : s.lines[n.val].tx.distantBreak = false)
    (hc : s.du.entries[h.number].cancelPending = true) :
    FreedAt s n h.number k (breakingTx (silentTx s.lines[n.val].tx)) (settle (boundary n s)) := by
  obtain ⟨v, hv⟩ : ∃ v, v = freeEntry h.number [cancelledReport (updTx n silentTx s) n h.number] (updTx n silentTx s) := ⟨_, rfl⟩
  have hcancel : cancelEntry h.number (updTx n silentTx s) = v := by
    rw [hv]
    exact cancelEntry_eq hl
  rw [boundary_defers hh hmore hstop (deferredRequest_cancels (s := updTx n silentTx s) (by rw [silentTx_line]; exact hh)
    (by rw [silentTx_line]; exact .inr hd) hc), cancelAtBoundary_begins hcancel]
  exact freedAt_of hk hw rfl hv.symm hl ha

theorem boundary_fail_frees (hmore : SendsOn s.lines[n.val].tx) (hd : s.lines[n.val].tx.distantBreak = true)
    (ht : s.lines[n.val].active.type = .pointToPoint) (hrec : s.lines[n.val].recovery = true)
    (hc : s.du.entries[h.number].cancelPending = false) (htry : 2 ≤ s.du.entries[h.number].attempts) :
    FreedAt s n h.number k (pausedTx (failedTx (droppedTx (silentTx s.lines[n.val].tx)))) (settle (boundary n s)) := by
  obtain ⟨u, hu⟩ : ∃ u, u = reportInterrupted h.number 3 (updTx n silentTx s) := ⟨_, rfl⟩
  have hueq : u = { updTx n silentTx s with du := { s.du with rewrites := u.du.rewrites }, report := u.report } := by
    rw [hu]
    exact reportInterrupted_eq _ _ _
  obtain ⟨v, hv⟩ : ∃ v, v = freeEntry h.number [failedReport u n h.number] u := ⟨_, rfl⟩
  have hlu : u.du.entries[h.number].line = n := by
    rw [hueq]
    exact hl
  have hau : u.du.active[n] = some h.number := by
    rw [hueq]
    exact ha
  have hfails : failedTryEntry h.number (updTx n silentTx s).lines[n.val].tx.textBegun (updTx n silentTx s) = v := by
    rw [failedTryEntry_fails (by exact hc) (by exact htry), ← hu, hv, failEntry_eq hlu]
  obtain ⟨count, hoffered⟩ := freeEntry_offered (rs := [failedReport u n h.number]) hlu hau
  rw [← hv] at hoffered
  have hlines : v.lines = (updTx n silentTx s).lines := by
    refine hoffered.lines.trans ?_
    show u.lines = _
    rw [hueq]
  rw [boundary_defers hh hmore hstop (deferredRequest_fails (s := updTx n silentTx s) (by rw [silentTx_line]; exact hh)
    (by rw [silentTx_line]; exact hd) (by rw [silentTx_line]; exact ht)), failTryToHead_begins hfails]
  · exact freedAt_of hk hw hueq hv.symm hl ha (f := fun t => pausedTx (failedTx (droppedTx t)))
  · simp only [hlines, silentTx_line]
    exact pauses_iff.2 ⟨ht, hrec⟩

end

/-! ## The entry goes back to the head of its queue -/

section
variable (hmore : SendsOn s.lines[n.val].tx) (hc : s.du.entries[h.number].cancelPending = false) (hr : s.du.rewrites = [])
include hh hstop hl ha hmore hc hr

theorem boundary_preempts (hb : s.lines[n.val].tx.breakInPending = true)
    (hd : s.lines[n.val].active.type = .party ∨ s.lines[n.val].tx.distantBreak = false) : boundary n s =
    offerReport (plainReport .deliveryInterrupted n.val (BitVec.ofNat 16 h.number.val) 5 s.office.clock)
      { updTx n (fun t => breakingTx (silentTx t)) s with
        du := interruptedDelivery s n h.number s.lines[n.val].tx.textBegun, port := leftPort (.transmitter n) s.port } := by
  rw [boundary_defers hh hmore hstop (deferredRequest_preempts (s := updTx n silentTx s) (by rw [silentTx_line]; exact hh)
    (by rw [silentTx_line]; exact hd.imp_left fun ht => by simp [isParty, ht]) hc (by rw [silentTx_line]; exact hb)),
    preemptVictim_begins (s := updTx n silentTx s) hc hl ha hr]
  have htx : updTx n breakingTx (updTx n silentTx s) = updTx n (fun t => breakingTx (silentTx t)) s := updTx_updTx _ _ s
  have hbegun : (updTx n silentTx s).lines[n.val].tx.textBegun = s.lines[n.val].tx.textBegun := by rw [silentTx_line]; rfl
  rw [hbegun]
  refine Eq.trans ?_ (congrArg (fun x : State => offerReport
    (plainReport .deliveryInterrupted n.val (BitVec.ofNat 16 h.number.val) 5 s.office.clock)
    { x with du := interruptedDelivery s n h.number s.lines[n.val].tx.textBegun, port := leftPort (.transmitter n) s.port }) htx)
  rfl

theorem boundary_retries (hd : s.lines[n.val].tx.distantBreak = true)
    (ht : s.lines[n.val].active.type = .pointToPoint) (hrec : s.lines[n.val].recovery = true)
    (htry : s.du.entries[h.number].attempts < 2) : boundary n s =
    offerReport (plainReport .deliveryInterrupted n.val (BitVec.ofNat 16 h.number.val) 3 s.office.clock)
      { updTx n (fun t => pausedTx (failedTx (droppedTx (silentTx t)))) s with
        du := returnedDelivery n h.number (triedAgain s.lines[n.val].tx.textBegun) s.du
        port := leftPort (.transmitter n) s.port } := by
  obtain ⟨v, hv⟩ : ∃ v, v = offerReport
    (plainReport .deliveryInterrupted n.val (BitVec.ofNat 16 h.number.val) 3 s.office.clock)
    { updTx n silentTx s with du := returnedDelivery n h.number (triedAgain s.lines[n.val].tx.textBegun) s.du } := ⟨_, rfl⟩
  have hbegun : (updTx n silentTx s).lines[n.val].tx.textBegun = s.lines[n.val].tx.textBegun := by rw [silentTx_line]; rfl
  have hfails : failedTryEntry h.number (updTx n silentTx s).lines[n.val].tx.textBegun (updTx n silentTx s) = v := by
    rw [hbegun, hv]
    exact failedTryEntry_plain (s := updTx n silentTx s) hc hl ha hr htry
  rw [boundary_defers hh hmore hstop (deferredRequest_fails (s := updTx n silentTx s) (by rw [silentTx_line]; exact hh)
    (by rw [silentTx_line]; exact hd) (by rw [silentTx_line]; exact ht)), failTryToHead_begins hfails]
  · rw [hv]
    exact congrArg (fun x : State => offerReport
      (plainReport .deliveryInterrupted n.val (BitVec.ofNat 16 h.number.val) 3 s.office.clock)
      { x with
        du := returnedDelivery n h.number (triedAgain s.lines[n.val].tx.textBegun) s.du
        port := leftPort (.transmitter n) s.port })
      (updTx_updTx (fun t => pausedTx (failedTx (droppedTx t))) silentTx s)
  · have hline : v.lines = (updTx n silentTx s).lines := by rw [hv]; rfl
    simp only [hline, silentTx_line]
    exact pauses_iff.2 ⟨ht, hrec⟩

end

end

end Sys2Proof.Machine

/-! SUPPORT. The outcomes of a character boundary while an issuer waits for the Store Port. -/

namespace Sys2Proof.Machine

variable {s e u v w t : State} {n : LineNo} {h : Hand} {d : DeliveryNo} {count : Nat} {rs : List Record}

/-! ## The rewrite of a freed entry waits -/

/-- The delivery `d` of line `n` is freed after its last sending, and its rewrite waits. -/
def freedWaiting (s : State) (n : LineNo) (d : DeliveryNo) (count : Nat) (rs : List Record) : State :=
  { updTx n silentTx s with du := freedDelivery s n d count rs, port := waitingPort .delivery s.port }

theorem freeEntry_waiting (hl : s.du.entries[d].line = n) (ha : s.du.active[n] = some d)
    (hk : s.du.transit[s.du.entries[d].transit].outstanding = count + 1) (hw : s.port.waiting ≠ []) :
    freeEntry d rs (updTx n silentTx s) = freedWaiting s n d count rs :=
  freeEntry_waits (s := updTx n silentTx s) hl ha (Nat.sub_eq_of_eq_add hk) hw

theorem freedWaiting_line : (freedWaiting s n d count rs).lines[n.val] = { s.lines[n.val] with tx := silentTx s.lines[n.val].tx } :=
  silentTx_line

/-- A further change of the transmitter. -/
theorem updTx_freedWaiting (f : Transmitter → Transmitter) (q : StorePort) :
    { updTx n f (freedWaiting s n d count rs) with port := q } =
      { updTx n (fun t => f (silentTx t)) s with du := freedDelivery s n d count rs, port := q } :=
  congrArg (fun x : State => { x with du := freedDelivery s n d count rs, port := q }) (updTx_updTx f silentTx s)

theorem updLine_freedWaiting (q : StorePort) :
    { updLine n offLine (freedWaiting s n d count rs) with port := q } =
      { updLine n offLine s with du := freedDelivery s n d count rs, port := q } := by
  have hoff : updLine n offLine (updTx n silentTx s) = updLine n offLine s := by
    unfold updTx
    rw [updLine_updLine]
    exact updLine_congr rfl
  exact congrArg (fun x : State => { x with du := freedDelivery s n d count rs, port := q }) hoff

section
variable (hh : s.lines[n.val].tx.hand = some h) (hl : s.du.entries[h.number].line = n) (ha : s.du.active[n] = some h.number)
  (hk : s.du.transit[s.du.entries[h.number].transit].outstanding = count + 1) (hw : s.port.waiting ≠ [])
include hh hl ha hk hw

/-! ## The completion -/

section
variable (hs : s.lines[n.val].tx.state = .sending) (hend : textEnded s.lines[n.val].tx = true)
include hs hend

theorem boundary_done_waits {f : Transmitter → Transmitter} (hstop : s.lines[n.val].tx.stopping = false)
    (hidle : ∀ y : State, y.lines[n.val] = { s.lines[n.val] with tx := completedTx (silentTx s.lines[n.val].tx) } →
      y.du.queues[n.val] = s.du.queues[n.val].filter (fun x => x != h.number) → enterIdle n y = updTx n f y) :
    ∃ q, boundary n s = { updTx n (fun t => f (completedTx (silentTx t))) s with
      du := freedDelivery s n h.number count (doneReports s n h.number), port := q } := by
  have hdone : completeEntry h.number (updTx n silentTx s) = freedWaiting s n h.number count (doneReports s n h.number) :=
    (completeEntry_eq (s := updTx n silentTx s) hl).trans (freeEntry_waiting hl ha hk hw)
  refine ⟨_, (boundary_done (f := f) hh hs hend hstop hdone rfl fun y hy hdu => hidle y hy ?_).trans
    (updTx_freedWaiting (fun t => f (completedTx t)) _)⟩
  obtain ⟨-, -, -, hfilter, -⟩ := freedDelivery_entry (s := s) (n := n) (d := h.number) (count := count)
    (rs := doneReports s n h.number)
  simp only [hdu]
  exact hfilter

theorem boundary_doneStops_waits (hstop : s.lines[n.val].tx.stopping = true) (hrx : s.lines[n.val].rx.state = .hunting)
    (hp : s.lines[n.val].settingsPending = false) : ∃ q, Issuer.transmitter n ∉ q.waiting ∧ boundary n s =
      { updLine n offLine s with du := freedDelivery s n h.number count (doneReports s n h.number), port := q } := by
  have hdone : completeEntry h.number (updTx n silentTx s) = freedWaiting s n h.number count (doneReports s n h.number) :=
    (completeEntry_eq (s := updTx n silentTx s) hl).trans (freeEntry_waiting hl ha hk hw)
  obtain ⟨q, hq, hbody⟩ := boundary_doneStops hh hs hend hstop hrx hp hdone rfl
  exact ⟨q, hq, hbody.trans (updLine_freedWaiting q)⟩

end

/-! ## The cancel and the failure -/

section
variable (hmore : SendsOn s.lines[n.val].tx)
include hmore

theorem boundary_cancel_waits (hstop : s.lines[n.val].tx.stopping = false) (hc : s.du.entries[h.number].cancelPending = true)
    (hd : s.lines[n.val].active.type = .party ∨ s.lines[n.val].tx.distantBreak = false) : ∃ q, boundary n s =
      { updTx n (fun t => breakingTx (silentTx t)) s with
        du := freedDelivery s n h.number count [cancelledReport s n h.number], port := q } := by
  have hcancel : cancelEntry h.number (updTx n silentTx s) = freedWaiting s n h.number count [cancelledReport s n h.number] :=
    (cancelEntry_eq (s := updTx n silentTx s) hl).trans (freeEntry_waiting hl ha hk hw)
  refine ⟨leftPort (.transmitter n) (waitingPort .delivery s.port), Eq.trans ?_ (updTx_freedWaiting breakingTx _)⟩
  rw [boundary_defers hh hmore hstop (deferredRequest_cancels (s := updTx n silentTx s) (by rw [silentTx_line]; exact hh)
    (by rw [silentTx_line]; exact hd.imp_left fun ht => by simp [isParty, ht]) hc), cancelAtBoundary_begins hcancel]
  rfl

section
variable (hstop : s.lines[n.val].tx.stopping = false) (ht : s.lines[n.val].active.type = .pointToPoint)
  (hd : s.lines[n.val].tx.distantBreak = true) (hrec : s.lines[n.val].recovery = true)
include hstop ht hd hrec

theorem boundary_cancelPauses_waits (hc : s.du.entries[h.number].cancelPending = true) : ∃ q, boundary n s =
      { updTx n (fun t => pausedTx (failedTx (droppedTx (silentTx t)))) s with
        du := freedDelivery s n h.number count [cancelledReport s n h.number], port := q } := by
  have hcancel : failedTryEntry h.number (updTx n silentTx s).lines[n.val].tx.textBegun (updTx n silentTx s) =
      freedWaiting s n h.number count [cancelledReport s n h.number] :=
    (failedTryEntry_cancels (s := updTx n silentTx s) hc).trans
      ((cancelEntry_eq (s := updTx n silentTx s) hl).trans (freeEntry_waiting hl ha hk hw))
  refine ⟨leftPort (.transmitter n) (waitingPort .delivery s.port),
    Eq.trans ?_ (updTx_freedWaiting (fun t => pausedTx (failedTx (droppedTx t))) _)⟩
  rw [boundary_defers hh hmore hstop (deferredRequest_fails (s := updTx n silentTx s) (by rw [silentTx_line]; exact hh)
    (by rw [silentTx_line]; exact hd) (by rw [silentTx_line]; exact ht)), failTryToHead_begins hcancel]
  · rfl
  · rw [freedWaiting_line]
    exact pauses_iff.2 ⟨ht, hrec⟩

theorem boundary_fail_waits (hc : s.du.entries[h.number].cancelPending = false) (htry : 2 ≤ s.du.entries[h.number].attempts)
    (hr : s.du.rewrites = []) : ∃ q, boundary n s =
      offerReport (plainReport .deliveryInterrupted n.val (BitVec.ofNat 16 h.number.val) 3 s.office.clock)
        { updTx n (fun t => pausedTx (failedTx (droppedTx (silentTx t)))) s with
          du := freedDelivery s n h.number count [failedReport s n h.number], port := q } := by
  obtain ⟨v, hv⟩ : ∃ v, v = offerReport (plainReport .deliveryInterrupted n.val (BitVec.ofNat 16 h.number.val) 3 s.office.clock)
    (freedWaiting s n h.number count [failedReport s n h.number]) := ⟨_, rfl⟩
  have hfails : failedTryEntry h.number (updTx n silentTx s).lines[n.val].tx.textBegun (updTx n silentTx s) = v := by
    rw [failedTryEntry_fails (s := updTx n silentTx s) hc htry, reportInterrupted_plain (s := updTx n silentTx s) hl hr,
      failEntry_eq (s := offerReport _ (updTx n silentTx s)) hl, freeEntry_waits (s := offerReport _ (updTx n silentTx s)) hl ha
        (Nat.sub_eq_of_eq_add hk) hw, hv]
    rfl
  refine ⟨leftPort (.transmitter n) v.port, Eq.trans ?_ (congrArg (offerReport
    (plainReport .deliveryInterrupted n.val (BitVec.ofNat 16 h.number.val) 3 s.office.clock))
    (updTx_freedWaiting (fun t => pausedTx (failedTx (droppedTx t))) (leftPort (.transmitter n) v.port)))⟩
  rw [boundary_defers hh hmore hstop (deferredRequest_fails (s := updTx n silentTx s) (by rw [silentTx_line]; exact hh)
    (by rw [silentTx_line]; exact hd) (by rw [silentTx_line]; exact ht)), failTryToHead_begins hfails]
  · rw [hv]
    rfl
  · have hline : v.lines[n.val] = { s.lines[n.val] with tx := silentTx s.lines[n.val].tx } := by
      rw [hv]
      exact silentTx_line
    rw [hline]
    exact pauses_iff.2 ⟨ht, hrec⟩

end

theorem boundary_cancelStops_waits (hstop : s.lines[n.val].tx.stopping = true) (hrx : s.lines[n.val].rx.state = .hunting)
    (hp : s.lines[n.val].settingsPending = false) (hc : s.du.entries[h.number].cancelPending = true) :
    ∃ q, Issuer.transmitter n ∉ q.waiting ∧ boundary n s =
      { updLine n offLine s with du := freedDelivery s n h.number count [cancelledReport s n h.number], port := q } := by
  have hcancel : interruptEntry h.number 1 s.lines[n.val].tx.textBegun (updTx n silentTx s) =
      freedWaiting s n h.number count [cancelledReport s n h.number] :=
    (interruptEntry_cancels (s := updTx n silentTx s) hc).trans
      ((cancelEntry_eq (s := updTx n silentTx s) hl).trans (freeEntry_waiting hl ha hk hw))
  obtain ⟨q, hq, hbody⟩ := boundary_off hh hmore hstop hrx hp hcancel
  exact ⟨q, hq, hbody.trans (updLine_freedWaiting q)⟩

end

end

/-! ## The DISABLE with the delivery given back -/

theorem boundary_interruptStops (hh : s.lines[n.val].tx.hand = some h) (hmore : SendsOn s.lines[n.val].tx)
    (hstop : s.lines[n.val].tx.stopping = true) (hrx : s.lines[n.val].rx.state = .hunting)
    (hp : s.lines[n.val].settingsPending = false) (hl : s.du.entries[h.number].line = n) (ha : s.du.active[n] = some h.number)
    (hc : s.du.entries[h.number].cancelPending = false) (hr : s.du.rewrites = []) :
    ∃ q, Issuer.transmitter n ∉ q.waiting ∧ boundary n s =
      offerReport (plainReport .deliveryInterrupted n.val (BitVec.ofNat 16 h.number.val) 1 s.office.clock)
        { updLine n offLine s with du := interruptedDelivery s n h.number s.lines[n.val].tx.textBegun, port := q } := by
  obtain ⟨q, hq, hbody⟩ := boundary_off hh hmore hstop hrx hp
    (interruptEntry_plain (s := updTx n silentTx s) (reason := 1) (begun := s.lines[n.val].tx.textBegun) hc hl ha hr)
  refine ⟨q, hq, hbody.trans ?_⟩
  have hoff : updLine n offLine (updTx n silentTx s) = updLine n offLine s := by
    unfold updTx
    rw [updLine_updLine]
    exact updLine_congr rfl
  refine Eq.trans ?_ (congrArg (fun x : State => offerReport
    (plainReport .deliveryInterrupted n.val (BitVec.ofNat 16 h.number.val) 1 s.office.clock)
    { x with du := interruptedDelivery s n h.number s.lines[n.val].tx.textBegun, port := q }) hoff)
  rfl

/-! ## The end of the event -/

/-- A change of the transmitter as a change of its line. -/
abbrev onTx (f : Transmitter → Transmitter) (l : LineUnit) : LineUnit := { l with tx := f l.tx }

section
variable {c0 : Code} {stop : StopLength} {i : Nat} {q : StorePort} {r : Record}

/-- A boundary that changes line `n`, the Delivery Unit and the Store Port. -/
theorem characterBoundary_part (f : LineUnit → LineUnit) {l : LineUnit} {D : DeliveryUnit} (hq : Quiet s)
    (hsend : s.lines[n.val].tx.sending = some ⟨.frame c0 stop, i⟩) (hl : f s.lines[n.val] = l)
    (hbody : boundary n s = { updLine n f s with du := D, port := q }) :
    ∃ t, exec (.characterBoundary n) s = .next t ∧
      SamePart { s with du := D, lines := s.lines.set n.val l n.isLt } t ∧ requests t = portRequests q ∧
      (Issuer.transmitter n ∉ q.waiting → Issuer.transmitter n ∉ t.port.waiting) := by
  subst hl
  obtain ⟨e, he⟩ : ∃ e : State, e = { updLine n f s with du := D } := ⟨_, rfl⟩
  have hqe : Quiet e := by
    rw [he]
    exact hq
  have hbody' : boundary n s = { e with port := q } := by
    rw [hbody, he]
  rw [exec_characterBoundary hq hsend, hbody']
  refine ⟨_, rfl, ?_, requests_settle hqe, fun hn => by rw [waiting_settle hqe]; exact hn⟩
  have hpart : SamePart e (settle { e with port := q }) := settle_port hqe
  rw [he] at hpart ⊢
  exact hpart

/-- The same with one report offered. -/
theorem characterBoundary_offers (f : LineUnit → LineUnit) {l : LineUnit} {D : DeliveryUnit} (hq : Quiet s)
    (hsend : s.lines[n.val].tx.sending = some ⟨.frame c0 stop, i⟩) (hl : f s.lines[n.val] = l)
    (hbody : boundary n s = offerReport r { updLine n f s with du := D, port := q }) :
    ∃ t, exec (.characterBoundary n) s = .next t ∧
      Offers r { s with du := D, lines := s.lines.set n.val l n.isLt } t ∧
      (Issuer.transmitter n ∉ q.waiting → Issuer.transmitter n ∉ t.port.waiting) := by
  subst hl
  obtain ⟨e, he⟩ : ∃ e : State, e = { updLine n f s with du := D } := ⟨_, rfl⟩
  have hqe : Quiet e := by
    rw [he]
    exact hq
  have hbody' : boundary n s = offerReport r { e with port := q } := by
    rw [hbody, he]
  rw [exec_characterBoundary hq hsend, hbody']
  refine ⟨_, rfl, ?_, not_mem_waiting_offers hqe⟩
  have hoffers : Offers r e (settle (offerReport r { e with port := q })) := offers_settle r hqe
  rw [he] at hoffers ⊢
  exact hoffers

end

/-! ## The transmitters in the words of the statement -/

theorem updTx_const {f : Transmitter → Transmitter} {x : Transmitter} (h : f s.lines[n.val].tx = x) :
    updTx n f s = updTx n (fun _ => x) s :=
  updLine_congr (by rw [h])

theorem calledTx_eq {t : Transmitter} {pos : Nat} {m : Member} {stop : StopLength} (hs : t.state = .calling) :
    calledTx s pos m stop (silentTx t) = { t with
      callPos := some pos, answerCount := none, answerWindow := []
      opening := [m.callCode.extractLsb' 5 5, m.callCode.extractLsb' 0 5]
      sending := some ⟨.frame s.office.held.ltrs stop, 0⟩, send := false } := by
  cases t
  dsimp only at hs
  subst hs
  rfl

theorem breakingTx_silent {t : Transmitter} (ho : t.owed = none) : breakingTx (silentTx t) =
    { droppedTx (silentTx t) with state := .breakIn, sending := some ⟨.breakIn, 0⟩, send := false } := breakingTx_eq ho

theorem sendsOn_sending {t : Transmitter}
    (h : t.state = .calling ∨ (t.state = .sending ∧ (t.opening ≠ [] ∨ t.readPos < t.effLen))) : SendsOn t :=
  h.elim sendsOn_calling fun ⟨_, h⟩ => sendsOn_text (h.imp_right fun h => .inr (.inr h))

end Sys2Proof.Machine

/-! PROOFS. The statement about the character boundary. -/

namespace Sys2Proof.Transmitters
open Sys2Proof.Machine

/-- Settles O50: the boundary by what it finds, with a freed entry's rewrite placed or not, and with it waiting. -/
theorem characterBoundary : Obligations.CharacterBoundary := by
  refine ⟨fun s n c0 stop i h k hq hsend hh hstop hk hp howed => ?_,
    fun s n c0 stop i h k count tx cancelled hq hsend hh howed hp hk hactive hline hcount htx hcancelled => ?_⟩
  · have hexec := exec_characterBoundary hq hsend
    have hbreak := congrArg (fun x : Transmitter => { s.lines[n.val] with tx := x }) (breakingTx_silent howed)
    refine ⟨fun c rest hs ho hd hb hc => ?_, fun hs ho hlen hhold hread ht hrec hqueue hactive hline hw => ?_,
      fun hs ho hd hc hactive hline hw => ?_, fun m pos hs ho hpos hm hconf hb ht hc => ?_,
      fun m x front back pos hs ho hpos hm hconf hb ht hc hset hlen => ⟨fun next hnext => ?_, fun hend hall hout hroom => ?_⟩,
      fun tx hc hactive hline hs htx => ⟨fun hb hr hd => ?_, fun hd ht hrec => ⟨fun htry hr => ?_, fun htry hw => ?_⟩⟩⟩
    · rw [hexec, boundary_code hh hstop howed hs ho hd hb hc, settle_quiet (quiet_updTx _ hq)]
      rfl
    · have hfreed := boundary_done_frees hh hstop hline hactive hk hw hs (textEnded_of ho hlen hhold hread) hrec hp hqueue
      refine ⟨_, hexec, ?_, ?_, ?_, ?_, hfreed.active, hfreed.state, hfreed.outstanding, hfreed.store, hfreed.router⟩
      all_goals
        rw [Fin.getElem_fin, hfreed.tx]
        rfl
    · have hfreed := boundary_cancel_frees hh hstop hline hactive hk hw (sendsOn_text (.inl ho)) hd hc
      refine ⟨_, hexec, ?_, ?_, ?_, ?_, hfreed.active, hfreed.state, hfreed.cancel, hfreed.outstanding, hfreed.store, hfreed.router⟩
      all_goals
        rw [Fin.getElem_fin, hfreed.tx]
        rfl
    · rw [hexec, boundary_waits hh hstop hs ho hpos hm hconf hb ht hc, settle_quiet (quiet_updTx _ hq)]
      rfl
    · rw [hexec, boundary_calls hh hstop hs ho hpos hm hconf hb ht hc hset hlen hnext howed, settle_quiet (by exact hq),
        updTx_const (calledTx_eq hs)]
      rfl
    · obtain ⟨t, ht, hpart, hreq, -⟩ := characterBoundary_part
        (onTx fun t => { begunTx h (openingCodes s h) (silentTx t) with live := t.live + 2 }) hq hsend rfl
        (boundary_begins hh hstop hs ho hpos hm hconf hb ht hc hset hlen hend hall hout hroom)
      exact ⟨t, ht, hpart, hreq.trans (portRequests_placedAll _ _)⟩
    · have hbody := boundary_preempts hh hstop hline hactive (sendsOn_sending hs) hc hr hb hd
      subst htx
      obtain ⟨t, ht, hoffers, -⟩ := characterBoundary_offers
        (onTx fun t => breakingTx (silentTx t)) hq hsend hbreak hbody
      exact ⟨t, ht, hoffers⟩
    · have hbody := boundary_retries hh hstop hline hactive (sendsOn_sending hs) hc hr hd ht hrec htry
      subst htx
      obtain ⟨t, ht, hoffers, -⟩ := characterBoundary_offers
        (onTx fun t => pausedTx (failedTx (droppedTx (silentTx t)))) hq hsend rfl hbody
      exact ⟨t, ht, hoffers⟩
    · have hfreed := boundary_fail_frees hh hstop hline hactive hk hw (sendsOn_sending hs) hd ht hrec hc htry
      refine ⟨_, hexec, ?_, ?_, ?_, ?_, ?_, hfreed.active, hfreed.state, hfreed.outstanding, hfreed.store, hfreed.router⟩
      all_goals
        rw [Fin.getElem_fin, hfreed.tx]
        rfl
  · have hbreak := congrArg (fun x : Transmitter => { s.lines[n.val] with tx := x }) (breakingTx_silent howed)
    subst hk htx hcancelled
    refine ⟨fun done hw hs ho hlen hhold hread hdone => ?_, fun hs => ?_⟩
    · have hend := textEnded_of ho hlen hhold hread
      subst hdone
      refine ⟨fun u hstop hu => ?_, fun hstop hrx => ?_⟩
      · rcases hu with ⟨hqueue, ht, rfl⟩ | ⟨ht, hrec, rfl⟩ | ⟨ht, hback, hqueue, rfl⟩
        · obtain ⟨q, hbody⟩ := boundary_done_waits (f := idleTx) hh hline hactive hcount hw hs hend hstop fun y hy hyq =>
            enterIdle_empty (by rw [hy, pauses_eq_false_iff]; exact ht) (by rw [hy]; exact hp) (by rw [hyq, ← Fin.getElem_fin, hqueue]; rfl)
          obtain ⟨t, ht, hpart, -⟩ := characterBoundary_part
            (onTx fun t => idleTx (completedTx (silentTx t))) hq hsend rfl hbody
          exact ⟨t, ht, hpart⟩
        · obtain ⟨q, hbody⟩ := boundary_done_waits (f := pausedTx) hh hline hactive hcount hw hs hend hstop fun y hy _ =>
            enterIdle_pauses (by rw [hy, pauses_iff]; exact ⟨ht, hrec⟩)
          obtain ⟨t, ht, hpart, -⟩ := characterBoundary_part
            (onTx fun t => pausedTx (completedTx (silentTx t))) hq hsend rfl hbody
          exact ⟨t, ht, hpart⟩
        · obtain ⟨d, hd, hne⟩ := hqueue
          obtain ⟨q, hbody⟩ := boundary_done_waits (f := guardingTx) hh hline hactive hcount hw hs hend hstop fun y hy hyq =>
            enterIdle_guards (by rw [hy]; exact hp) (by rw [hy]; exact ht)
              (by rw [hyq]; exact List.ne_nil_of_mem (List.mem_filter.2 ⟨hd, by simpa using hne⟩)) (by rw [hy]; exact hback)
          obtain ⟨t, ht, hpart, -⟩ := characterBoundary_part
            (onTx fun t => guardingTx (completedTx (silentTx t))) hq hsend rfl hbody
          exact ⟨t, ht, hpart⟩
      · obtain ⟨q, hleft, hbody⟩ := boundary_doneStops_waits hh hline hactive hcount hw hs hend hstop hrx hp
        obtain ⟨t, ht, hpart, -, hgone⟩ := characterBoundary_part
          offLine hq hsend rfl hbody
        exact ⟨t, ht, hgone hleft, hpart⟩
    · have hmore : SendsOn s.lines[n.val].tx := hs.elim sendsOn_calling fun hs => sendsOn_text hs.2
      refine ⟨fun u hw hstop hc hu => ?_, fun hw hstop hc ht hd hrec htry hr => ?_, fun hstop hrx => ⟨fun hc hr => ?_, fun hw hc => ?_⟩⟩
      · rcases hu with ⟨hd, rfl⟩ | ⟨ht, hd, hrec, rfl⟩
        · obtain ⟨q, hbody⟩ := boundary_cancel_waits hh hline hactive hcount hw hmore hstop hc hd
          obtain ⟨t, ht, hpart, -⟩ := characterBoundary_part
            (onTx fun t => breakingTx (silentTx t)) hq hsend hbreak hbody
          exact ⟨t, ht, hpart⟩
        · obtain ⟨q, hbody⟩ := boundary_cancelPauses_waits hh hline hactive hcount hw hmore hstop ht hd hrec hc
          obtain ⟨t, ht, hpart, -⟩ := characterBoundary_part
            (onTx fun t => pausedTx (failedTx (droppedTx (silentTx t)))) hq hsend rfl hbody
          exact ⟨t, ht, hpart⟩
      · obtain ⟨q, hbody⟩ := boundary_fail_waits hh hline hactive hcount hw hmore hstop ht hd hrec hc htry hr
        obtain ⟨t, ht, hoffers, -⟩ := characterBoundary_offers
          (onTx fun t => pausedTx (failedTx (droppedTx (silentTx t)))) hq hsend rfl hbody
        exact ⟨t, ht, hoffers⟩
      · obtain ⟨q, hleft, hbody⟩ := boundary_interruptStops hh hmore hstop hrx hp hline hactive hc hr
        obtain ⟨t, ht, hoffers, hgone⟩ := characterBoundary_offers
          offLine hq hsend rfl hbody
        exact ⟨t, ht, hgone hleft, hoffers⟩
      · obtain ⟨q, hleft, hbody⟩ := boundary_cancelStops_waits hh hline hactive hcount hw hmore hstop hrx hp hc
        obtain ⟨t, ht, hpart, -, hgone⟩ := characterBoundary_part
          offLine hq hsend rfl hbody
        exact ⟨t, ht, hgone hleft, hpart⟩

end Sys2Proof.Transmitters
